-- ==== Sys2Proof/Word.lean ====
section
/-! DEFINITION. The two unsigned widths of the machine (00_scope.md R6, R7). -/

namespace Sys2Proof

/-- An 8-bit value: a byte of program memory, `register`, `note`, `instrument`, an `imm8`. -/
abbrev Byte := BitVec 8

/-- A 16-bit value: an address, `cursor`, a counter, `syscallCode`, an `imm16`. -/
abbrev Word := BitVec 16

end Sys2Proof
end

