-- ==== Sys2Proof/Syntax.lean ====
section
/-! DEFINITION. The instructions of the Track bytecode, one constructor per row of the opcode map
(30_encoding.md R75), and the three formats (R70). -/

namespace Sys2Proof

/-- The formats of 30_encoding.md R70: an opcode byte followed by zero, one or two operand bytes. -/
inductive Format where
  | f0
  | f8
  | f16
  deriving DecidableEq, Repr

/-- An instruction. `imm` is the 8-bit operand, `imm16` the 16-bit operand (R73, R74). -/
inductive Instr where
  /-- `NOP`, 0x00 (41_control.md R120). -/
  | nop
  /-- `PLAYSET`, 0xE6 (45_events.md R183). -/
  | playSet
  /-- `PLAY`, 0xE7 (45_events.md R182). -/
  | play (imm : Byte)
  /-- `INSTRUMENTSET`, 0xE8 (45_events.md R181). -/
  | instrumentSet
  /-- `INSTRUMENT`, 0xE9 (45_events.md R180). -/
  | instrument (imm : Byte)
  /-- `WAIT16`, 0xEA (44_timing.md R173). -/
  | wait16 (imm16 : Word)
  /-- `WAIT`, 0xEB (44_timing.md R172). -/
  | wait (imm : Byte)
  /-- `TICKS16`, 0xEC (44_timing.md R171). -/
  | ticks16 (imm16 : Word)
  /-- `TICKS`, 0xED (44_timing.md R170). -/
  | ticks (imm : Byte)
  /-- `GTEQUAL`, 0xEE (43_register.md R158). -/
  | gtEqual (imm : Byte)
  /-- `LTEQUAL`, 0xEF (43_register.md R157). -/
  | ltEqual (imm : Byte)
  /-- `GT`, 0xF0 (43_register.md R156). -/
  | gt (imm : Byte)
  /-- `LT`, 0xF1 (43_register.md R155). -/
  | lt (imm : Byte)
  /-- `EQUAL`, 0xF2 (43_register.md R154). -/
  | equal (imm : Byte)
  /-- `SUB`, 0xF3 (43_register.md R153). -/
  | sub (imm : Byte)
  /-- `ADD`, 0xF4 (43_register.md R152). -/
  | add (imm : Byte)
  /-- `SET`, 0xF5 (43_register.md R151). -/
  | setReg (imm : Byte)
  /-- Opcode 0xF6, assembler mnemonic `RESET`: a bare note of 246 (42_system.md R141). -/
  | reset
  /-- `SYSCALL`, 0xF7 (42_system.md R140). -/
  | syscall (imm16 : Word)
  /-- `IFNOTREPEAT`, 0xF8 (41_control.md R128). -/
  | ifNotRepeat
  /-- `IFREPEAT`, 0xF9 (41_control.md R127). -/
  | ifRepeat
  /-- `REPEAT`, 0xFA (41_control.md R126). -/
  | repeatOp
  /-- `SECTION`, 0xFB (41_control.md R125). -/
  | sectionOp
  /-- `IFNOTJUMP`, 0xFC (41_control.md R124). -/
  | ifNotJump (imm16 : Word)
  /-- `IFJUMP`, 0xFD (41_control.md R123). -/
  | ifJump (imm16 : Word)
  /-- `JUMP`, 0xFE (41_control.md R122). -/
  | jump (imm16 : Word)
  /-- `HALT`, 0xFF (41_control.md R121). -/
  | halt
  /-- A bare note: the opcode byte is the note (45_events.md R184). -/
  | bareNote (opcode : Byte)
  deriving DecidableEq, Repr

end Sys2Proof
end

