-- ==== Sys2Proof/WellFormed.lean ====
section
/-! DEFINITION. Which terms of `Instr` stand for an encoding. Operand bytes are unconstrained
(30_encoding.md R79), so the one check is on the bare note's own byte (R75, R77). -/

namespace Sys2Proof

/-- The opcode bytes the BARE_NOTE row stands for here: 0x01 to 0xE5. The remaining bare-note byte,
0xF6, has a row and a constructor of its own, `Instr.reset` (notes/assumptions/11.md). -/
def isBareNoteByte (b : Byte) : Bool := decide (0x01#8 ≤ b) && decide (b ≤ 0xE5#8)

/-- An instruction is well formed when some byte string encodes it. -/
def Instr.wf : Instr → Bool
  | .bareNote n => isBareNoteByte n
  | .nop | .playSet | .play _ | .instrumentSet | .instrument _ | .wait16 _ | .wait _ | .ticks16 _
  | .ticks _ | .gtEqual _ | .ltEqual _ | .gt _ | .lt _ | .equal _ | .sub _ | .add _ | .setReg _
  | .reset | .syscall _ | .ifNotRepeat | .ifRepeat | .repeatOp | .sectionOp | .ifNotJump _
  | .ifJump _ | .jump _ | .halt => true

end Sys2Proof
end

