-- ==== Sys2Proof/Decode.lean ====
section
/-! DEFINITION. The decoder and the encoder (30_encoding.md R70 to R79). Decoding an opcode byte never
fails (R76); decoding a byte string fails only where the string ends inside an instruction. -/

namespace Sys2Proof

/-- Little-endian assembly of a 16-bit operand, `b1 + 256 * b2` (R74, 20_memory.md R54). -/
def wordOfBytes (lo hi : Byte) : Word := hi ++ lo

/-- The byte stored at the lower address of a 16-bit operand. -/
def lowByte (w : Word) : Byte := w.extractLsb' 0 8

/-- The byte stored at the higher address of a 16-bit operand. -/
def highByte (w : Word) : Byte := w.extractLsb' 8 8

/-- The length of an instruction in bytes (R70). -/
def formatLength : Format → Nat
  | .f0 => 1
  | .f8 => 2
  | .f16 => 3

/-- The format an opcode byte selects (R71, R72). -/
def opcodeFormat (b0 : Byte) : Format :=
  match b0 with
  | 0xFE#8 | 0xFD#8 | 0xFC#8 | 0xF7#8 | 0xEC#8 | 0xEA#8 => .f16
  | 0xF5#8 | 0xF4#8 | 0xF3#8 | 0xF2#8 | 0xF1#8 | 0xF0#8 | 0xEF#8 | 0xEE#8 | 0xED#8 | 0xEB#8 | 0xE9#8
  | 0xE7#8 => .f8
  | _ => .f0

/-- The opcode map (R75), total on the opcode byte (R76); an instruction without operands ignores
`b1` and `b2`. -/
def decode (b0 b1 b2 : Byte) : Instr :=
  match b0 with
  | 0x00#8 => .nop
  | 0xE6#8 => .playSet
  | 0xE7#8 => .play b1
  | 0xE8#8 => .instrumentSet
  | 0xE9#8 => .instrument b1
  | 0xEA#8 => .wait16 (wordOfBytes b1 b2)
  | 0xEB#8 => .wait b1
  | 0xEC#8 => .ticks16 (wordOfBytes b1 b2)
  | 0xED#8 => .ticks b1
  | 0xEE#8 => .gtEqual b1
  | 0xEF#8 => .ltEqual b1
  | 0xF0#8 => .gt b1
  | 0xF1#8 => .lt b1
  | 0xF2#8 => .equal b1
  | 0xF3#8 => .sub b1
  | 0xF4#8 => .add b1
  | 0xF5#8 => .setReg b1
  | 0xF6#8 => .reset
  | 0xF7#8 => .syscall (wordOfBytes b1 b2)
  | 0xF8#8 => .ifNotRepeat
  | 0xF9#8 => .ifRepeat
  | 0xFA#8 => .repeatOp
  | 0xFB#8 => .sectionOp
  | 0xFC#8 => .ifNotJump (wordOfBytes b1 b2)
  | 0xFD#8 => .ifJump (wordOfBytes b1 b2)
  | 0xFE#8 => .jump (wordOfBytes b1 b2)
  | 0xFF#8 => .halt
  | n => .bareNote n

/-- Why a byte string holds no whole instruction. No opcode byte is among the reasons (R76, R77). -/
inductive DecodeError where
  /-- There is no opcode byte. -/
  | empty
  /-- The string ends before the last operand byte of the format. -/
  | truncated
  deriving DecidableEq, Repr

/-- Decode the first instruction of a byte string; the answer carries the bytes after it. -/
def decodeBytes : List Byte → Except DecodeError (Instr × List Byte)
  | [] => .error .empty
  | b0 :: rest =>
    match opcodeFormat b0, rest with
    | .f0, r => .ok (decode b0 0 0, r)
    | .f8, b1 :: r => .ok (decode b0 b1 0, r)
    | .f16, b1 :: b2 :: r => .ok (decode b0 b1 b2, r)
    | .f8, [] => .error .truncated
    | .f16, [] => .error .truncated
    | .f16, [_] => .error .truncated

/-- The format of an instruction (R72). -/
def instrFormat : Instr → Format
  | .nop | .halt | .sectionOp | .repeatOp | .ifRepeat | .ifNotRepeat | .instrumentSet | .playSet
  | .reset | .bareNote _ => .f0
  | .setReg _ | .add _ | .sub _ | .equal _ | .lt _ | .gt _ | .ltEqual _ | .gtEqual _ | .ticks _
  | .wait _ | .instrument _ | .play _ => .f8
  | .jump _ | .ifJump _ | .ifNotJump _ | .syscall _ | .ticks16 _ | .wait16 _ => .f16

/-- The bytes of format F16, in address order (R70). -/
def bytesF16 (opcode : Byte) (imm16 : Word) : List Byte := [opcode, lowByte imm16, highByte imm16]

/-- The bytes of an instruction in increasing address order, opcode first (R70, R90). -/
def encode : Instr → List Byte
  | .nop => [0x00]
  | .playSet => [0xE6]
  | .play imm => [0xE7, imm]
  | .instrumentSet => [0xE8]
  | .instrument imm => [0xE9, imm]
  | .wait16 imm16 => bytesF16 0xEA imm16
  | .wait imm => [0xEB, imm]
  | .ticks16 imm16 => bytesF16 0xEC imm16
  | .ticks imm => [0xED, imm]
  | .gtEqual imm => [0xEE, imm]
  | .ltEqual imm => [0xEF, imm]
  | .gt imm => [0xF0, imm]
  | .lt imm => [0xF1, imm]
  | .equal imm => [0xF2, imm]
  | .sub imm => [0xF3, imm]
  | .add imm => [0xF4, imm]
  | .setReg imm => [0xF5, imm]
  | .reset => [0xF6]
  | .syscall imm16 => bytesF16 0xF7 imm16
  | .ifNotRepeat => [0xF8]
  | .ifRepeat => [0xF9]
  | .repeatOp => [0xFA]
  | .sectionOp => [0xFB]
  | .ifNotJump imm16 => bytesF16 0xFC imm16
  | .ifJump imm16 => bytesF16 0xFD imm16
  | .jump imm16 => bytesF16 0xFE imm16
  | .halt => [0xFF]
  | .bareNote n => [n]

/-- Byte `k` of an instruction whose `nbits` bits are `w`, bit 0 the least significant bit of the
first byte (R70: `insn = b0 + 2^8 * b1 + 2^16 * b2`); bits above `nbits` are 0. -/
def tableByte (nbits w k : Nat) : Byte := BitVec.ofNat 8 (w % 2 ^ nbits / 2 ^ (8 * k))

/-- The three bytes of a table word, lowest address first; three is the longest instruction. -/
def tableBytes (nbits w : Nat) : List Byte :=
  [tableByte nbits w 0, tableByte nbits w 1, tableByte nbits w 2]

/-- What the decoder reads from an instruction whose bits are `w`, numbered as the opcode table
numbers them. -/
def decodeTableWord (nbits w : Nat) : Option Instr :=
  match decodeBytes (tableBytes nbits w) with
  | .ok (i, _) => some i
  | .error _ => none

end Sys2Proof
end

