-- ==== Sys2Proof/Config.lean ====
section
/-! DEFINITION. The implementation parameters of 00_scope.md R6 whose origin is a decision or a
conflict (R11), with this hardware's values in `Config.hardware`. The sizes whose origin is the source
(8, 16, 1 register) are the types'. `BUF_LEN` is open (92_eei_decisions.md, open parameters): it is a property
of a program's image, so it is an argument of Safety.lean's predicates and `Config.fetchLimit` here. -/

namespace Sys2Proof

/-- `REG_ARITH` (10_state.md R22, 43_register.md R150 and R160; decision D1, conflict C7). -/
inductive RegArith where
  /-- `ADD` and `SUB` reduce modulo 256. -/
  | wrap8
  /-- `ADD` and `SUB` on an unbounded integer: the original program's behaviour. -/
  | unmasked
  deriving DecidableEq, Repr

/-- `DEFAULTS`: a value for each of the 14 resettable fields (70_reset_and_hazards.md R230). -/
structure Defaults where
  cursor : Word
  tickCounter : Word
  sectionAnchor : Word
  register : Byte
  accumulator : Bool
  instrument : Byte
  note : Byte
  syscallCode : Word
  tickRate : Word
  waitCounter : Word
  halted : Bool
  syscallPulse : Bool
  instrumentPulse : Bool
  playPulse : Bool
  deriving DecidableEq, Repr

/-- The parameters a claim may name or quantify over. -/
structure Config where
  /-- `REG_ARITH`. -/
  regArith : RegArith
  /-- `NOP_ENDS_PHASE` (conflict C2, decision D8). -/
  nopEndsPhase : Bool
  /-- `COND_JUMP_SKIP` (conflict C4, decision D9). -/
  condJumpSkip : Word
  /-- `HALT_ADVANCE` (conflict C1, decision D10). -/
  haltAdvance : Word
  /-- `LOOP_BOUND` (40_dispatch.md R109). -/
  loopBound : Nat
  /-- `DEFAULTS` (decision D2). -/
  defaults : Defaults
  /-- `PADDR_BITS`: the width of a program-memory address; addresses wrap modulo 2 to this power
  (20_memory.md R52; decision D3, notes/assumptions/6.md). -/
  paddrBits : Nat
  /-- Whether a fetch whose address would wrap is refused: the reading of 93_implementation_defined.md
  U11 for a software buffer longer than the address reaches; the hardware wraps. -/
  wrapRefused : Bool
  /-- Where a fetch is refused: `some BUF_LEN` is the conservative reading of 20_memory.md R51, which
  refuses a fetch at or above it; `none` is the hardware, which reads the byte that is there. -/
  fetchLimit : Option Nat
  deriving DecidableEq, Repr

/-- Every resettable field 0 or false (decision D2; notes/assumptions/4.md). -/
def Defaults.zero : Defaults where
  cursor := 0
  tickCounter := 0
  sectionAnchor := 0
  register := 0
  accumulator := false
  instrument := 0
  note := 0
  syscallCode := 0
  tickRate := 0
  waitCounter := 0
  halted := false
  syscallPulse := false
  instrumentPulse := false
  playPulse := false

/-- This hardware (00_scope.md R6, column "value"). -/
def Config.hardware : Config where
  regArith := .wrap8
  nopEndsPhase := true
  condJumpSkip := 2
  haltAdvance := 1
  loopBound := 255
  defaults := Defaults.zero
  paddrBits := 16
  wrapRefused := false
  fetchLimit := none

end Sys2Proof
end

