-- ==== Sys2Proof/Machine/State.lean ====
section
/-! DEFINITION. The state of one Track (10_state.md R20), the program memory it fetches from
(20_memory.md R50, R51), the events of its current call (60_exceptions.md R204), and the state after
reset (70_reset_and_hazards.md R230). -/

namespace Sys2Proof.Machine

/-- What the machine hands to its host (60_exceptions.md R204). -/
inductive Event where
  | halt
  | syscall (code : Word)
  | instrument (index : Byte)
  | play (note : Byte)
  deriving DecidableEq, Repr

/-- Program memory: byte cells in rising address order, none equal to what an unlisted address reads
as (`Memory.wf`, Machine/Ops.lean). -/
abbrev Memory := List Host.Cell

/-- The fifteen fields of 10_state.md R20; `cursor` is the program counter `pc`, `register` is `x[0]`,
`accumulator` is the condition flag `acc`. -/
structure Track where
  /-- Where the program begins in the buffer; immutable after construction (R30). -/
  base : Word
  /-- Offset from `base` of the next instruction to fetch (R24). -/
  cursor : Word
  /-- Calls left to be throttled (R32). -/
  tickCounter : Word
  /-- The one saved jump target (R34). -/
  sectionAnchor : Word
  /-- The general register (R21, R22). -/
  register : Byte
  /-- The result of the last comparison (R27). -/
  accumulator : Bool
  /-- Latch of the last instrument index (R36). -/
  instrument : Byte
  /-- Latch of the last note (R37). -/
  note : Byte
  /-- Latch of the last syscall code (R35). -/
  syscallCode : Word
  /-- Reload value of `tickCounter` (R31). -/
  tickRate : Word
  /-- Active phases left to be skipped (R33). -/
  waitCounter : Word
  /-- Sticky; set by `HALT`, cleared by reset (R28). -/
  halted : Bool
  /-- Set by `SYSCALL` (R29). -/
  syscallPulse : Bool
  /-- Set by `INSTRUMENT` and `INSTRUMENTSET` (R29). -/
  instrumentPulse : Bool
  /-- Set by `PLAY`, `PLAYSET` and the bare note (R29). -/
  playPulse : Bool
  deriving DecidableEq, Repr

/-- A Track with what its steps read and produce. `pmem` is a parameter of every step, not part of the
Track (20_memory.md R50); `events` is the event list of the current dispatch call, oldest first
(60_exceptions.md R204). -/
structure State extends Track where
  pmem : Memory
  events : List Event
  deriving DecidableEq, Repr

/-- The machine has no fault: every condition that would be one elsewhere has a defined outcome
(60_exceptions.md R200, 40_dispatch.md R116). No constructor, so no one can raise one. -/
inductive Fault where
  deriving DecidableEq, Repr

/-- Reasons to have no move. None is raised by `step` or by a meaning of an instruction. -/
inductive Refusal where
  /-- Raised by an arm of `exec` whose instruction has no meaning yet; none is left. Safe. -/
  | notModelled (mnemonic : String)
  /-- Raised by Machine/Variants.lean only, under `REG_ARITH = unmasked`: `INSTRUMENTSET` or `PLAYSET`
  with the register outside 0 to 255 (43_register.md R160, decision D13). Safe. -/
  | registerOutOfRange
  /-- Raised by Machine/Variants.lean only, under a fetch limit: a fetch at or above `BUF_LEN`
  (20_memory.md R51, 93_implementation_defined.md U3). Safe. -/
  | fetchBeyondImage
  /-- Raised by Machine/Variants.lean only, under `wrapRefused`: a fetch whose address would pass the
  last one (93_implementation_defined.md U11, decision D3). Safe. -/
  | fetchWraps
  /-- Raised by Machine/Transactions.lean only: a host request names a Track that was never
  constructed (60_exceptions.md R208 has no such transaction). Safe. -/
  | noSuchTrack
  deriving DecidableEq, Repr

/-- The state record with `base` as given and every other field at its default
(70_reset_and_hazards.md R230, R231). -/
def Track.ofDefaults (d : Defaults) (base : Word) : Track where
  base := base
  cursor := d.cursor
  tickCounter := d.tickCounter
  sectionAnchor := d.sectionAnchor
  register := d.register
  accumulator := d.accumulator
  instrument := d.instrument
  note := d.note
  syscallCode := d.syscallCode
  tickRate := d.tickRate
  waitCounter := d.waitCounter
  halted := d.halted
  syscallPulse := d.syscallPulse
  instrumentPulse := d.instrumentPulse
  playPulse := d.playPulse

/-- The machine right after reset: a Track constructed at base 0 (notes/assumptions/5.md) over a memory
in which nothing is listed (notes/assumptions/2.md), with no event handed over yet. -/
def State.reset : State where
  toTrack := Track.ofDefaults Config.hardware.defaults 0
  pmem := []
  events := []

end Sys2Proof.Machine
end

