-- ==== Sys2Proof/Machine/Ops.lean ====
section
/-! DEFINITION. The named operations over program memory, the cursor and the fields of the Track. There
is no trap to take and none to return from (60_exceptions.md R200, R207); the one thing the machine
does towards its host is `State.emit`. -/

namespace Sys2Proof.Machine

/-! ### Program memory -/

/-- What a byte that nothing has written reads as. No rule constrains the bytes outside the image
(20_memory.md R51); since `pmem` is arbitrary in every statement about all states, 0 is a choice of
representation there, and a choice of contents in `State.reset` only (notes/assumptions/2.md).
DESIGN CHOICE. -/
def Memory.unlisted : Byte := 0

/-- The number of byte locations (20_memory.md R51). -/
def Memory.size : Nat := 65536

/-- The byte at address `k`: the first cell listed for it. -/
def Memory.lookup (k : Nat) : Memory → Byte
  | [] => Memory.unlisted
  | (j, b) :: m => if j = k then b else Memory.lookup k m

/-- `MemRead(addr, 1)` (20_memory.md R54). -/
def Memory.read (m : Memory) (a : Word) : Byte := Memory.lookup a.toNat m

/-- `m` without any cell for address `k`. -/
def Memory.erase (k : Nat) : Memory → Memory
  | [] => []
  | (j, b) :: m => if j = k then Memory.erase k m else (j, b) :: Memory.erase k m

/-- `m` with the cell for address `k` set to `b`, in address order. -/
def Memory.insert (k : Nat) (b : Byte) : Memory → Memory
  | [] => [(k, b)]
  | (j, c) :: m =>
    if k < j then (k, b) :: (j, c) :: m
    else if j = k then (k, b) :: m
    else (j, c) :: Memory.insert k b m

/-- `MemWrite(addr, 1, v)`: the host's only (20_memory.md R57). -/
def Memory.write (m : Memory) (a : Word) (b : Byte) : Memory :=
  if b = Memory.unlisted then Memory.erase a.toNat m else Memory.insert a.toNat b m

/-- The bytes of a list written at `a`, `a +_16 1`, and so on. -/
def Memory.writeBytes (m : Memory) (a : Word) : List Byte → Memory
  | [] => m
  | b :: bs => Memory.writeBytes (m.write a b) (a + 1) bs

/-- Canonical form from address `lo` on: strictly rising addresses below 65536, no cell equal to what
an unlisted address reads as. -/
def Memory.wfFrom (lo : Nat) : Memory → Bool
  | [] => true
  | (k, b) :: m =>
    decide (lo ≤ k) && decide (k < Memory.size) && decide (b ≠ Memory.unlisted)
      && Memory.wfFrom (k + 1) m

/-- The canonical form of a memory. -/
def Memory.wf (m : Memory) : Bool := Memory.wfFrom 0 m

/-! ### The fetch address and the cursor -/

/-- `A(k) = (base + pc + k) mod 2^16` (20_memory.md R52, R53), at this hardware's `PADDR_BITS`;
`codeAddrBy` of Machine/Variants.lean is the address at any width (notes/assumptions/6.md). -/
def State.codeAddr (s : State) (k : Nat) : Word := s.base + s.cursor + BitVec.ofNat 16 k

/-- The byte of program memory at `A(k)`. -/
def State.codeByte (s : State) (k : Nat) : Byte := s.pmem.read (s.codeAddr k)

/-- `pc <- t`. -/
def State.jumpTo (s : State) (t : Word) : State := { s with cursor := t }

/-- `pc <- pc +_16 n` (10_state.md R25, R26). -/
def State.advance (s : State) (n : Word) : State := s.jumpTo (s.cursor + n)

/-- The conditional transfer of 41_control.md: to `t` when the condition holds, else on by `skip`. -/
def State.branch (s : State) (taken : Bool) (t skip : Word) : State :=
  if taken then s.jumpTo t else s.advance skip

/-! ### Fields -/

/-- `x[0] <- v`. -/
def State.writeRegister (s : State) (v : Byte) : State := { s with register := v }

/-- `sectionAnchor <- pc` (41_control.md R125). -/
def State.saveAnchor (s : State) : State := { s with sectionAnchor := s.cursor }

/-- `tickRate <- v` (10_state.md R31). -/
def State.setTickRate (s : State) (v : Word) : State := { s with tickRate := v }

/-- `waitCounter <- v` (10_state.md R33). -/
def State.setWaitCounter (s : State) (v : Word) : State := { s with waitCounter := v }

/-- `halted <- true` (10_state.md R28). -/
def State.setHalted (s : State) : State := { s with halted := true }

/-- `emit E`: append to the events of the current call (60_exceptions.md R204). -/
def State.emit (s : State) (e : Event) : State := { s with events := s.events ++ [e] }

end Sys2Proof.Machine
end

