-- ==== Sys2Proof/Machine/Flags.lean ====
section
/-! DEFINITION. The condition flag and the pulse flags (10_state.md R27, R29). No arithmetic operation
writes a flag (43_register.md R150). -/

namespace Sys2Proof.Machine

/-- `acc <- v`; a comparison overwrites the flag entirely (43_register.md R159). -/
def State.setAccumulator (s : State) (v : Bool) : State := { s with accumulator := v }

/-- `x[0] = imm8` (43_register.md R154). -/
def cmpEqual (x imm : Byte) : Bool := x == imm

/-- `x[0] < imm8`, unsigned (43_register.md R155). -/
def cmpLt (x imm : Byte) : Bool := x.ult imm

/-- `x[0] > imm8`, unsigned (43_register.md R156). -/
def cmpGt (x imm : Byte) : Bool := imm.ult x

/-- `x[0] <= imm8`, unsigned (43_register.md R157). -/
def cmpLtEqual (x imm : Byte) : Bool := x.ule imm

/-- `x[0] >= imm8`, unsigned (43_register.md R158). -/
def cmpGtEqual (x imm : Byte) : Bool := imm.ule x

/-- Step 4 of the dispatch: clear the three pulse flags (40_dispatch.md R104). -/
def State.clearPulses (s : State) : State :=
  { s with syscallPulse := false, instrumentPulse := false, playPulse := false }

/-- Latch, pulse, cursor and event of a syscall, in the order of 45_events.md R187 (42_system.md R140). -/
def State.raiseSyscall (s : State) (code len : Word) : State :=
  (State.advance { s with syscallCode := code, syscallPulse := true } len).emit (.syscall code)

/-- Latch, pulse, cursor and event of an instrument change (45_events.md R180, R181, R187). -/
def State.raiseInstrument (s : State) (index : Byte) (len : Word) : State :=
  (State.advance { s with instrument := index, instrumentPulse := true } len).emit (.instrument index)

/-- Latch, pulse, cursor and event of a note (45_events.md R182 to R184, R187). -/
def State.raisePlay (s : State) (note : Byte) (len : Word) : State :=
  (State.advance { s with note := note, playPulse := true } len).emit (.play note)

end Sys2Proof.Machine
end

