-- ==== Sys2Proof/Machine/Operands.lean ====
section
/-! DEFINITION. The operand forms. The only addressing mode is the immediate that is part of the
instruction (20_memory.md R57); `x[0]` is implied. -/

namespace Sys2Proof.Machine

/-- `MemRead(addr, 2)`: little-endian, the second address wrapping (20_memory.md R54). -/
def Memory.read16 (m : Memory) (a : Word) : Word := wordOfBytes (m.read a) (m.read (a + 1))

/-- `imm8` of the instruction at the cursor (30_encoding.md R73). -/
def State.imm8 (s : State) : Byte := s.codeByte 1

/-- `imm16` of the instruction at the cursor (30_encoding.md R74). -/
def State.imm16 (s : State) : Word := s.pmem.read16 (s.codeAddr 1)

/-- `zext_16` (00_scope.md R7, 30_encoding.md R73). -/
def zext16 (b : Byte) : Word := b.setWidth 16

/-- The instruction at the cursor. The decoder ignores the bytes the format does not have, so reading
all three is unobservable (20_memory.md R54, R58; notes/assumptions/13.md). -/
def State.fetch (s : State) : Instr := decode (s.codeByte 0) (s.codeByte 1) (s.codeByte 2)

end Sys2Proof.Machine
end

