-- ==== Sys2Proof/Machine/Control.lean ====
section
/-! DEFINITION. The control instructions (41_control.md R120 to R128). -/

namespace Sys2Proof.Machine

/-- The effect of `HALT` with its cursor increment as a parameter (R121, conflict C1). -/
def State.haltBy (s : State) (adv : Word) : State := (s.setHalted.advance adv).emit .halt

/-- `NOP` (R120). -/
def execNop (s : State) : Host.Outcome State Fault Refusal := .next (s.advance 1)

/-- `HALT` (R121): the machine is halted from the next call on. -/
def execHalt (s : State) : Host.Outcome State Fault Refusal :=
  .next (s.haltBy Config.hardware.haltAdvance)

/-- `JUMP` (R122). -/
def execJump (imm16 : Word) (s : State) : Host.Outcome State Fault Refusal :=
  .next (s.jumpTo imm16)

/-- `IFJUMP` (R123); not taken, the cursor moves on by `COND_JUMP_SKIP`. -/
def execIfJump (imm16 : Word) (s : State) : Host.Outcome State Fault Refusal :=
  .next (s.branch s.accumulator imm16 Config.hardware.condJumpSkip)

/-- `IFNOTJUMP` (R124). -/
def execIfNotJump (imm16 : Word) (s : State) : Host.Outcome State Fault Refusal :=
  .next (s.branch (!s.accumulator) imm16 Config.hardware.condJumpSkip)

/-- `SECTION` (R125): saves the offset of its own opcode byte. -/
def execSection (s : State) : Host.Outcome State Fault Refusal := .next (s.saveAnchor.advance 1)

/-- `REPEAT` (R126). -/
def execRepeat (s : State) : Host.Outcome State Fault Refusal := .next (s.jumpTo s.sectionAnchor)

/-- `IFREPEAT` (R127). -/
def execIfRepeat (s : State) : Host.Outcome State Fault Refusal :=
  .next (s.branch s.accumulator s.sectionAnchor 1)

/-- `IFNOTREPEAT` (R128). -/
def execIfNotRepeat (s : State) : Host.Outcome State Fault Refusal :=
  .next (s.branch (!s.accumulator) s.sectionAnchor 1)

end Sys2Proof.Machine
end

