-- ==== Sys2Proof/Machine/EventOps.lean ====
section
/-! DEFINITION. The event instructions and the bare note (45_events.md R180 to R184), and the event
output (60_exceptions.md R209). -/

namespace Sys2Proof.Machine

/-- `INSTRUMENT` (R180). -/
def execInstrument (imm : Byte) (s : State) : Host.Outcome State Fault Refusal :=
  .next (s.raiseInstrument imm 2)

/-- `INSTRUMENTSET` (R181). -/
def execInstrumentSet (s : State) : Host.Outcome State Fault Refusal :=
  .next (s.raiseInstrument s.register 1)

/-- `PLAY` (R182). -/
def execPlay (imm : Byte) (s : State) : Host.Outcome State Fault Refusal := .next (s.raisePlay imm 2)

/-- `PLAYSET` (R183). -/
def execPlaySet (s : State) : Host.Outcome State Fault Refusal := .next (s.raisePlay s.register 1)

/-- The bare note (R184): the opcode byte is the note. -/
def execBareNote (opcode : Byte) (s : State) : Host.Outcome State Fault Refusal :=
  .next (s.raisePlay opcode 1)

/-- The payload of an event on the 16-bit event output (60_exceptions.md R204, R209): 8-bit payloads
zero-extended, `Halt` has none. The 2-bit kind is the event's constructor; R209 gives no codes
(notes/assumptions/20.md). DEDUCED. -/
def eventPayload : Event → Option Word
  | .halt => none
  | .syscall code => some code
  | .instrument index => some (zext16 index)
  | .play note => some (zext16 note)

end Sys2Proof.Machine
end

