-- ==== Sys2Proof/Machine/Register.lean ====
section
/-! DEFINITION. The register instructions (43_register.md R151 to R158), with `REG_ARITH = wrap8`. -/

namespace Sys2Proof.Machine

/-- Write `x[0]` and step over a two-byte instruction. -/
def State.loadRegister (s : State) (v : Byte) : State := (s.writeRegister v).advance 2

/-- Write `acc` and step over a two-byte instruction. -/
def State.compare (s : State) (v : Bool) : State := (s.setAccumulator v).advance 2

/-- `SET` (R151). -/
def execSet (imm : Byte) (s : State) : Host.Outcome State Fault Refusal :=
  .next (s.loadRegister imm)

/-- `ADD` (R152): modulo 256, no flag. -/
def execAdd (imm : Byte) (s : State) : Host.Outcome State Fault Refusal :=
  .next (s.loadRegister (s.register + imm))

/-- `SUB` (R153): modulo 256, no flag. -/
def execSub (imm : Byte) (s : State) : Host.Outcome State Fault Refusal :=
  .next (s.loadRegister (s.register - imm))

/-- `EQUAL` (R154). -/
def execEqual (imm : Byte) (s : State) : Host.Outcome State Fault Refusal :=
  .next (s.compare (cmpEqual s.register imm))

/-- `LT` (R155). -/
def execLt (imm : Byte) (s : State) : Host.Outcome State Fault Refusal :=
  .next (s.compare (cmpLt s.register imm))

/-- `GT` (R156). -/
def execGt (imm : Byte) (s : State) : Host.Outcome State Fault Refusal :=
  .next (s.compare (cmpGt s.register imm))

/-- `LTEQUAL` (R157). -/
def execLtEqual (imm : Byte) (s : State) : Host.Outcome State Fault Refusal :=
  .next (s.compare (cmpLtEqual s.register imm))

/-- `GTEQUAL` (R158). -/
def execGtEqual (imm : Byte) (s : State) : Host.Outcome State Fault Refusal :=
  .next (s.compare (cmpGtEqual s.register imm))

end Sys2Proof.Machine
end

