-- ==== Sys2Proof/Machine/System.lean ====
section
/-! DEFINITION. The system instructions (42_system.md R140, R141). -/

namespace Sys2Proof.Machine

/-- `SYSCALL` (R140): a one-way signal; the machine goes on at the next instruction phase. -/
def execSyscall (imm16 : Word) (s : State) : Host.Outcome State Fault Refusal :=
  .next (s.raiseSyscall imm16 3)

/-- Opcode 0xF6, mnemonic `RESET` (R141): a bare note of value 246; it resets nothing. -/
def execReset (s : State) : Host.Outcome State Fault Refusal := .next (s.raisePlay 0xF6 1)

end Sys2Proof.Machine
end

