-- ==== Sys2Proof/Machine/Timing.lean ====
section
/-! DEFINITION. The timing instructions (44_timing.md R170 to R173). None touches `tickCounter`. -/

namespace Sys2Proof.Machine

/-- `TICKS` (R170). -/
def execTicks (imm : Byte) (s : State) : Host.Outcome State Fault Refusal :=
  .next ((s.setTickRate (zext16 imm)).advance 2)

/-- `TICKS16` (R171). -/
def execTicks16 (imm16 : Word) (s : State) : Host.Outcome State Fault Refusal :=
  .next ((s.setTickRate imm16).advance 3)

/-- `WAIT` (R172). -/
def execWait (imm : Byte) (s : State) : Host.Outcome State Fault Refusal :=
  .next ((s.setWaitCounter (zext16 imm)).advance 2)

/-- `WAIT16` (R173). -/
def execWait16 (imm16 : Word) (s : State) : Host.Outcome State Fault Refusal :=
  .next ((s.setWaitCounter imm16).advance 3)

end Sys2Proof.Machine
end

