-- ==== Sys2Proof/Machine/Dispatch.lean ====
section
/-! DEFINITION. `Exec1` (00_scope.md R9): one arm per instruction, each the meaning its rule gives. -/

namespace Sys2Proof.Machine

def exec (i : Instr) (s : State) : Host.Outcome State Fault Refusal :=
  match i with
  | .nop => Sys2Proof.Machine.execNop s
  | .playSet => Sys2Proof.Machine.execPlaySet s
  | .play imm => Sys2Proof.Machine.execPlay imm s
  | .instrumentSet => Sys2Proof.Machine.execInstrumentSet s
  | .instrument imm => Sys2Proof.Machine.execInstrument imm s
  | .wait16 imm16 => Sys2Proof.Machine.execWait16 imm16 s
  | .wait imm => Sys2Proof.Machine.execWait imm s
  | .ticks16 imm16 => Sys2Proof.Machine.execTicks16 imm16 s
  | .ticks imm => Sys2Proof.Machine.execTicks imm s
  | .gtEqual imm => Sys2Proof.Machine.execGtEqual imm s
  | .ltEqual imm => Sys2Proof.Machine.execLtEqual imm s
  | .gt imm => Sys2Proof.Machine.execGt imm s
  | .lt imm => Sys2Proof.Machine.execLt imm s
  | .equal imm => Sys2Proof.Machine.execEqual imm s
  | .sub imm => Sys2Proof.Machine.execSub imm s
  | .add imm => Sys2Proof.Machine.execAdd imm s
  | .setReg imm => Sys2Proof.Machine.execSet imm s
  | .reset => Sys2Proof.Machine.execReset s
  | .syscall imm16 => Sys2Proof.Machine.execSyscall imm16 s
  | .ifNotRepeat => Sys2Proof.Machine.execIfNotRepeat s
  | .ifRepeat => Sys2Proof.Machine.execIfRepeat s
  | .repeatOp => Sys2Proof.Machine.execRepeat s
  | .sectionOp => Sys2Proof.Machine.execSection s
  | .ifNotJump imm16 => Sys2Proof.Machine.execIfNotJump imm16 s
  | .ifJump imm16 => Sys2Proof.Machine.execIfJump imm16 s
  | .jump imm16 => Sys2Proof.Machine.execJump imm16 s
  | .halt => Sys2Proof.Machine.execHalt s
  | .bareNote opcode => Sys2Proof.Machine.execBareNote opcode s

end Sys2Proof.Machine
end

