-- ==== Sys2Proof/Machine/PhaseEnd.lean ====
section
/-! DEFINITION. The control outcome of each instruction (00_scope.md R8, 40_dispatch.md R108): fixed by
the opcode, never by data, and so a function of the instruction beside `exec`, not part of its answer
(notes/assumptions/12.md). -/

namespace Sys2Proof.Machine

/-- What the instruction loop does after an instruction. -/
inductive Control where
  /-- `end_phase`: the dispatch call returns. -/
  | endPhase
  /-- `continue`: the next iteration runs if the bound allows. -/
  | continueLoop
  deriving DecidableEq, Repr

/-- The control outcome, column "ends phase" of 30_encoding.md R75. -/
def controlOutcome (c : Config) : Instr → Control
  | .nop => if c.nopEndsPhase then .endPhase else .continueLoop
  | .syscall _ => .endPhase
  | .ticks _ => .endPhase
  | .ticks16 _ => .endPhase
  | .wait _ => .endPhase
  | .wait16 _ => .endPhase
  | .instrument _ => .endPhase
  | .instrumentSet => .endPhase
  | .play _ => .endPhase
  | .playSet => .endPhase
  | .bareNote _ => .endPhase
  | .reset => .endPhase
  | .halt => .continueLoop
  | .jump _ => .continueLoop
  | .ifJump _ => .continueLoop
  | .ifNotJump _ => .continueLoop
  | .sectionOp => .continueLoop
  | .repeatOp => .continueLoop
  | .ifRepeat => .continueLoop
  | .ifNotRepeat => .continueLoop
  | .setReg _ => .continueLoop
  | .add _ => .continueLoop
  | .sub _ => .continueLoop
  | .equal _ => .continueLoop
  | .lt _ => .continueLoop
  | .gt _ => .continueLoop
  | .ltEqual _ => .continueLoop
  | .gtEqual _ => .continueLoop

/-- Whether an instruction ends the phase. -/
def endsPhase (c : Config) (i : Instr) : Bool := controlOutcome c i == .endPhase

end Sys2Proof.Machine
end

