-- ==== Sys2Proof/Machine/Sequencer.lean ====
section
/-! DEFINITION. The dispatch algorithm (40_dispatch.md R100 to R110), over a meaning of instructions
`ex` and a control outcome `ends`: the machine's own are supplied by Step.lean. -/

namespace Sys2Proof.Machine

/-- The event list of a call starts empty (R100). -/
def State.beginCall (s : State) : State := { s with events := [] }

/-- Step 2: one throttled call (R102). -/
def State.throttle (s : State) : State := { s with tickCounter := s.tickCounter - 1 }

/-- Step 3: `tickCounter <- tickRate` (R103). -/
def State.reload (s : State) : State := { s with tickCounter := s.tickRate }

/-- Step 5: one waiting phase (R105). -/
def State.consumeWait (s : State) : State := { s with waitCounter := s.waitCounter - 1 }

/-- Steps 3 and 4: what every active phase does before the wait gate (R103, R104). -/
def State.openPhase (s : State) : State := s.reload.clearPulses

/-- Step 6: at most `n` iterations of fetch, effect, control outcome (R106, R108, R109). The iteration
count is local to the call (10_state.md R41). So 254 `HALT`s and then an instruction that signals hand
over 255 events, as these rules give, against a clause of R111 (notes/assumptions/23.md). DEDUCED. -/
def phaseLoop (ex : Instr → State → Host.Outcome State Fault Refusal) (ends : Instr → Bool) :
    Nat → State → Host.Outcome State Fault Refusal
  | 0, s => .next s
  | n + 1, s =>
    match ex s.fetch s with
    | .next t => if ends s.fetch then .next t else phaseLoop ex ends n t
    | .fault r => .fault r
    | .refused r => .refused r

/-- `Dispatch(S, PMEM)` (R100): the gates in their fixed order, halted, throttle, wait (R107), then the
instruction loop. -/
def dispatchBy (ex : Instr → State → Host.Outcome State Fault Refusal) (ends : Instr → Bool)
    (bound : Nat) (s : State) : Host.Outcome State Fault Refusal :=
  if s.halted then .next (s.beginCall.emit .halt)
  else if s.tickCounter ≠ 0 then .next s.beginCall.throttle
  else if s.waitCounter ≠ 0 then .next s.beginCall.openPhase.consumeWait
  else phaseLoop ex ends bound s.beginCall.openPhase

/-- The gates that would keep the next call from fetching, opened; used to place an instruction where
the very next step runs it (notes/assumptions/14.md). -/
def State.openGates (s : State) : State := { s with halted := false, tickCounter := 0, waitCounter := 0 }

/-- Bytes placed at the fetch address. -/
def State.placeCode (s : State) (bytes : List Byte) : State :=
  { s with pmem := s.pmem.writeBytes (s.codeAddr 0) bytes }

end Sys2Proof.Machine
end

