-- ==== Sys2Proof/Machine/Step.lean ====
section
/-! DEFINITION. The step of the machine is one host request `dispatch()` (40_dispatch.md R100): the
granularity the host sees (00_scope.md R9; notes/assumptions/1.md). -/

namespace Sys2Proof.Machine

/-- `Exec1` on the instruction at the cursor (00_scope.md R9). -/
def instrStep (s : State) : Host.Outcome State Fault Refusal := exec s.fetch s

/-- `Dispatch` with this hardware's instructions, control outcomes and bound. -/
def step (s : State) : Host.Outcome State Fault Refusal :=
  dispatchBy exec (endsPhase Config.hardware) Config.hardware.loopBound s

/-- `s` with the instruction of a table word placed where the next step fetches, and with the three
gates open so that the next step does fetch (notes/assumptions/14.md). -/
def State.withFetchWord (s : State) (nbits w : Nat) : State :=
  s.openGates.placeCode (tableBytes nbits w)

end Sys2Proof.Machine
end

