-- ==== Sys2Proof/Machine/Assembler.lean ====
section
/-! DEFINITION. The companion encoder (30_encoding.md R88 to R96): no part of the machine and no state
of it (00_scope.md R4), but what decides the bytes a program text becomes. -/

namespace Sys2Proof.Machine

/-- What a caller passes as an operand. Numbers are integers: the spec's assembly text has no others
(R91, decision D19; notes/assumptions/18.md). -/
inductive AsmInput where
  | int (v : Int)
  | nonNumeric
  deriving DecidableEq, Repr

/-- The integer the coercion starts from; non-numeric input counts as 0 (R91). -/
def AsmInput.value : AsmInput → Int
  | .int v => v
  | .nonNumeric => 0

/-- `coerce8(v) = |v| mod 256` (R91). -/
def coerce8 (v : AsmInput) : Byte := BitVec.ofNat 8 (v.value.natAbs % 2 ^ 8)

/-- `coerce16(v) = |v| mod 65536` (R91). -/
def coerce16 (v : AsmInput) : Word := BitVec.ofNat 16 (v.value.natAbs % 2 ^ 16)

/-- The emission operations without an operand (R90). -/
inductive Mnemonic0 where
  | nop | halt | sectionOp | repeatOp | ifRepeat | ifNotRepeat | reset | instrumentSet | playSet
  deriving DecidableEq, Repr

/-- The emission operations with an 8-bit operand (R90). -/
inductive Mnemonic8 where
  | setReg | add | sub | equal | lt | gt | ltEqual | gtEqual | ticks | wait | instrument | play
  deriving DecidableEq, Repr

/-- The emission operations with a 16-bit operand (R90). -/
inductive Mnemonic16 where
  | jump | ifJump | ifNotJump | syscall | ticks16 | wait16
  deriving DecidableEq, Repr

/-- A call of the assembler: one of the 27 mnemonics, or a raw helper (R88, R89). -/
inductive AsmCall where
  | op0 (m : Mnemonic0)
  | op8 (m : Mnemonic8) (v : AsmInput)
  | op16 (m : Mnemonic16) (v : AsmInput)
  /-- `BYTE(b)`. -/
  | byte (v : AsmInput)
  /-- `SHORT(v)`. -/
  | short (v : AsmInput)
  deriving DecidableEq, Repr

/-- The opcode byte of R90's table. -/
def Mnemonic0.opcode : Mnemonic0 → Byte
  | .nop => 0x00
  | .halt => 0xFF
  | .sectionOp => 0xFB
  | .repeatOp => 0xFA
  | .ifRepeat => 0xF9
  | .ifNotRepeat => 0xF8
  | .reset => 0xF6
  | .instrumentSet => 0xE8
  | .playSet => 0xE6

/-- The opcode byte of R90's table. -/
def Mnemonic8.opcode : Mnemonic8 → Byte
  | .setReg => 0xF5
  | .add => 0xF4
  | .sub => 0xF3
  | .equal => 0xF2
  | .lt => 0xF1
  | .gt => 0xF0
  | .ltEqual => 0xEF
  | .gtEqual => 0xEE
  | .ticks => 0xED
  | .wait => 0xEB
  | .instrument => 0xE9
  | .play => 0xE7

/-- The opcode byte of R90's table. -/
def Mnemonic16.opcode : Mnemonic16 → Byte
  | .jump => 0xFE
  | .ifJump => 0xFD
  | .ifNotJump => 0xFC
  | .syscall => 0xF7
  | .ticks16 => 0xEC
  | .wait16 => 0xEA

/-- The two bytes of a 16-bit operand, low byte first (R90). -/
def shortBytes (v : AsmInput) : List Byte := [lowByte (coerce16 v), highByte (coerce16 v)]

/-- What a call appends to the buffer (R90); no call fails (R93). -/
def AsmCall.bytes : AsmCall → List Byte
  | .op0 m => [m.opcode]
  | .op8 m v => [m.opcode, coerce8 v]
  | .op16 m v => m.opcode :: shortBytes v
  | .byte v => [coerce8 v]
  | .short v => shortBytes v

/-- The instruction a mnemonic without an operand stands for. -/
def Mnemonic0.instr : Mnemonic0 → Instr
  | .nop => .nop
  | .halt => .halt
  | .sectionOp => .sectionOp
  | .repeatOp => .repeatOp
  | .ifRepeat => .ifRepeat
  | .ifNotRepeat => .ifNotRepeat
  | .reset => .reset
  | .instrumentSet => .instrumentSet
  | .playSet => .playSet

/-- The instruction a mnemonic with an 8-bit operand stands for. -/
def Mnemonic8.instr : Mnemonic8 → Byte → Instr
  | .setReg => .setReg
  | .add => .add
  | .sub => .sub
  | .equal => .equal
  | .lt => .lt
  | .gt => .gt
  | .ltEqual => .ltEqual
  | .gtEqual => .gtEqual
  | .ticks => .ticks
  | .wait => .wait
  | .instrument => .instrument
  | .play => .play

/-- The instruction a mnemonic with a 16-bit operand stands for. -/
def Mnemonic16.instr : Mnemonic16 → Word → Instr
  | .jump => .jump
  | .ifJump => .ifJump
  | .ifNotJump => .ifNotJump
  | .syscall => .syscall
  | .ticks16 => .ticks16
  | .wait16 => .wait16

/-- The one machine instruction a mnemonic emits (R94); a raw helper emits bytes, not an instruction. -/
def AsmCall.instr : AsmCall → Option Instr
  | .op0 m => some m.instr
  | .op8 m v => some (m.instr (coerce8 v))
  | .op16 m v => some (m.instr (coerce16 v))
  | .byte _ => none
  | .short _ => none

/-- The bytes of a program text, a sequence of calls (R89). -/
def assemble : List AsmCall → List Byte
  | [] => []
  | c :: cs => c.bytes ++ assemble cs

end Sys2Proof.Machine
end

