-- ==== Sys2Proof/Machine/Transactions.lean ====
section
/-! DEFINITION. The host's transactions on one Track and on a system of Tracks over one program memory
(60_exceptions.md R208, R210, R218; 70_reset_and_hazards.md R230 to R232). Transactions are serial and
atomic (R202, R209; notes/assumptions/16.md). -/

namespace Sys2Proof.Machine

/-! ### One Track -/

/-- `new(base: u16)` (70_reset_and_hazards.md R231). -/
def Track.construct (base : Word) : Track := Track.ofDefaults Config.hardware.defaults base

/-- `reset()` (R230): every field but `base` to its reset value. -/
def Track.hostReset (t : Track) : Track := Track.ofDefaults Config.hardware.defaults t.base

/-- `reset()` on a state: the buffer is not touched and no event is emitted (R232). -/
def State.hostReset (s : State) : State := { s with toTrack := s.toTrack.hostReset, events := [] }

/-- A Track with the memory its next call reads. -/
def Track.over (t : Track) (m : Memory) : State := { toTrack := t, pmem := m, events := [] }

/-- The seven fields the host may read between transactions (10_state.md R38), the level outputs of
60_exceptions.md R209. -/
structure Observation where
  halted : Bool
  syscallPulse : Bool
  syscallCode : Word
  instrumentPulse : Bool
  instrument : Byte
  playPulse : Bool
  note : Byte
  deriving DecidableEq, Repr

/-- Observe (R208): changes nothing. -/
def Track.observe (t : Track) : Observation where
  halted := t.halted
  syscallPulse := t.syscallPulse
  syscallCode := t.syscallCode
  instrumentPulse := t.instrumentPulse
  instrument := t.instrument
  playPulse := t.playPulse
  note := t.note

/-- `n` dispatch calls of one Track with the stream of their events, the concatenation of the calls'
lists in call order (60_exceptions.md R204). -/
def dispatchStream : Nat → State → Host.Outcome (State × List Event) Fault Refusal
  | 0, s => .next (s, [])
  | n + 1, s =>
    match step s with
    | .fault r => .fault r
    | .refused r => .refused r
    | .next t =>
      match dispatchStream n t with
      | .fault r => .fault r
      | .refused r => .refused r
      | .next (u, es) => .next (u, t.events ++ es)

/-! ### Several Tracks on one buffer -/

/-- Program memory, which is the assembler's process-wide output buffer (20_memory.md R50, 00_scope.md
R10, 30_encoding.md R96), and the Tracks constructed on it. The buffer's bytes stand in `pmem` and
nowhere else, so what the host writes there is what the assembler's accessor reads. -/
structure System where
  pmem : Memory
  /-- `BUF_LEN`: how many of the buffer's bytes have a location, the addresses below it
  (20_memory.md R51). -/
  bufLen : Nat
  /-- The buffer's bytes of index 65536 and up, which have no location (notes/assumptions/19.md). -/
  beyond : List Byte
  tracks : List Track
  deriving DecidableEq, Repr

/-- Before the host's first request: nothing assembled, nothing constructed. -/
def System.initial : System where
  pmem := []
  bufLen := 0
  beyond := []
  tracks := []

/-- What the host may ask for between two transactions (60_exceptions.md R208, R210; 30_encoding.md
R88). A Track is named by its number in construction order. -/
inductive Request where
  | construct (base : Word)
  | dispatch (k : Nat)
  | reset (k : Nat)
  | observe (k : Nat)
  | writeByte (a : Word) (b : Byte)
  | assemble (c : AsmCall)
  | clearBuffer
  | bufferLength
  | inspectBuffer
  deriving DecidableEq, Repr

/-- What the host gets back (60_exceptions.md R208, last column). -/
inductive Reply where
  | constructed (k : Nat)
  | events (es : List Event)
  | nothing
  | observed (o : Observation)
  | length (n : Nat)
  | contents (bs : List Byte)
  deriving DecidableEq, Repr

/-- What the assembler's length accessor answers (30_encoding.md R88, R96). -/
def System.bufferLength (y : System) : Nat := y.bufLen + y.beyond.length

/-- What the assembler's inspection accessor answers: the bytes as program memory holds them now
(30_encoding.md R88; notes/assumptions/19.md). DEDUCED. -/
def System.contents (y : System) : List Byte :=
  (List.range y.bufLen).map (fun k => y.pmem.read (BitVec.ofNat 16 k)) ++ y.beyond

/-- One byte to the end of the buffer: at its sequence index in `PMEM`, if there is such a location
(20_memory.md R50, R51; notes/assumptions/19.md). -/
def System.appendByte (y : System) (b : Byte) : System :=
  if y.bufLen < Memory.size then
    { y with pmem := y.pmem.write (BitVec.ofNat 16 y.bufLen) b, bufLen := y.bufLen + 1 }
  else { y with beyond := y.beyond ++ [b] }

/-- Bytes to the end of the buffer, in order. -/
def System.appendBytes (y : System) : List Byte → System
  | [] => y
  | b :: bs => (y.appendByte b).appendBytes bs

/-- The system with Track `k` replaced. -/
def System.setTrack (y : System) (k : Nat) (t : Track) : System := { y with tracks := y.tracks.set k t }

/-- Construct: a new Track (70_reset_and_hazards.md R231). -/
def System.construct (y : System) (base : Word) : System :=
  { y with tracks := y.tracks ++ [Track.construct base] }

/-- Dispatch on Track `k` (40_dispatch.md R100): its state alone changes. -/
def System.dispatch (y : System) (k : Nat) : Host.Outcome (System × Reply) Fault Refusal :=
  match y.tracks[k]? with
  | none => .refused .noSuchTrack
  | some t =>
    match step (t.over y.pmem) with
    | .next s => .next (y.setTrack k s.toTrack, .events s.events)
    | .fault r => .fault r
    | .refused r => .refused r

/-- Reset of Track `k`: no reply, no event (70_reset_and_hazards.md R232). -/
def System.resetTrack (y : System) (k : Nat) : Host.Outcome (System × Reply) Fault Refusal :=
  match y.tracks[k]? with
  | none => .refused .noSuchTrack
  | some t => .next (y.setTrack k t.hostReset, .nothing)

/-- Observation of Track `k`. -/
def System.observe (y : System) (k : Nat) : Host.Outcome (System × Reply) Fault Refusal :=
  match y.tracks[k]? with
  | none => .refused .noSuchTrack
  | some t => .next (y, .observed t.observe)

/-- The host writes one byte of program memory; no Track is involved (60_exceptions.md R208). Below the
buffer's length the byte is one of the buffer's, so the accessor shows it, since buffer and program
memory are one object (00_scope.md R10, 20_memory.md R50); DEDUCED. At or above the length it does not
lengthen the buffer, which only the assembler's operations append to; DESIGN CHOICE
(notes/assumptions/19.md). -/
def System.writeByte (y : System) (a : Word) (b : Byte) : System := { y with pmem := y.pmem.write a b }

/-- One assembler call: its bytes go to the end of the buffer (30_encoding.md R88). -/
def System.assemble (y : System) (c : AsmCall) : System := y.appendBytes c.bytes

/-- The assembler's explicit reset call: the sequence becomes empty (30_encoding.md R88). The bytes that
were in it stay in `PMEM` until they are written again (notes/assumptions/19.md). DESIGN CHOICE. -/
def System.clearBuffer (y : System) : System := { y with bufLen := 0, beyond := [] }

/-- One host request, from a state between two transactions to the next (60_exceptions.md R208). -/
def System.request (y : System) : Request → Host.Outcome (System × Reply) Fault Refusal
  | .construct base => .next (y.construct base, .constructed y.tracks.length)
  | .dispatch k => y.dispatch k
  | .reset k => y.resetTrack k
  | .observe k => y.observe k
  | .writeByte a b => .next (y.writeByte a b, .nothing)
  | .assemble c => .next (y.assemble c, .nothing)
  | .clearBuffer => .next (y.clearBuffer, .nothing)
  | .bufferLength => .next (y, .length y.bufferLength)
  | .inspectBuffer => .next (y, .contents y.contents)

/-- A sequence of host requests, the replies in order. -/
def System.run (y : System) : List Request → Host.Outcome (System × List Reply) Fault Refusal
  | [] => .next (y, [])
  | r :: rs =>
    match y.request r with
    | .fault e => .fault e
    | .refused e => .refused e
    | .next (z, p) =>
      match z.run rs with
      | .fault e => .fault e
      | .refused e => .refused e
      | .next (w, ps) => .next (w, p :: ps)

end Sys2Proof.Machine
end

