-- ==== Sys2Proof/Machine/Variants.lean ====
section
/-! DEFINITION. The machine under any value of the open parameters (00_scope.md R6, R11;
92_eei_decisions.md, open parameters). It is not the machine of `step`: it is what a claim quantifies
over when it is to hold for the original program too (10_state.md R22, 43_register.md R160). The
register is an integer here, as the rules write it; `core.register` holds its low 8 bits. -/

namespace Sys2Proof.Machine

/-- A state of a variant: everything of `State`, and the register as an integer. -/
structure Variant where
  core : State
  wide : Int
  deriving DecidableEq, Repr

/-- A state of the machine seen as a state of a variant. -/
def Variant.ofState (s : State) : Variant where
  core := s
  wide := s.register.toNat

/-- The reduction `ADD` and `SUB` apply to their exact result (43_register.md R150, R160). -/
def reduceBy : RegArith → Int → Int
  | .wrap8, x => x % 256
  | .unmasked, x => x

/-- `x[0] <- x`, then on by 2. -/
def Variant.loadRegister (v : Variant) (x : Int) : Variant where
  core := v.core.loadRegister (BitVec.ofInt 8 x)
  wide := x

/-- `acc <- b`, then on by 2. -/
def Variant.compare (v : Variant) (b : Bool) : Variant := { v with core := v.core.compare b }

/-- An instruction that neither reads nor writes the register. -/
def Variant.lift (v : Variant) : Host.Outcome State Fault Refusal → Host.Outcome Variant Fault Refusal
  | .next t => .next { v with core := t }
  | .fault r => .fault r
  | .refused r => .refused r

/-- The register as an 8-bit payload, where it is one (43_register.md R160, decision D13). -/
def Variant.payload (v : Variant) : Option Byte :=
  if 0 ≤ v.wide ∧ v.wide < 256 then some (BitVec.ofInt 8 v.wide) else none

/-- `Exec1` under the parameters `c`. -/
def execVariant (c : Config) (i : Instr) (v : Variant) : Host.Outcome Variant Fault Refusal :=
  match i with
  | .halt => .next { v with core := v.core.haltBy c.haltAdvance }
  | .ifJump t => .next { v with core := v.core.branch v.core.accumulator t c.condJumpSkip }
  | .ifNotJump t => .next { v with core := v.core.branch (!v.core.accumulator) t c.condJumpSkip }
  | .setReg imm => .next (v.loadRegister imm.toNat)
  | .add imm => .next (v.loadRegister (reduceBy c.regArith (v.wide + imm.toNat)))
  | .sub imm => .next (v.loadRegister (reduceBy c.regArith (v.wide - imm.toNat)))
  | .equal imm => .next (v.compare (decide (v.wide = imm.toNat)))
  | .lt imm => .next (v.compare (decide (v.wide < imm.toNat)))
  | .gt imm => .next (v.compare (decide (v.wide > imm.toNat)))
  | .ltEqual imm => .next (v.compare (decide (v.wide ≤ imm.toNat)))
  | .gtEqual imm => .next (v.compare (decide (v.wide ≥ imm.toNat)))
  | .instrumentSet =>
    match v.payload with
    | some b => .next { v with core := v.core.raiseInstrument b 1 }
    | none => .refused .registerOutOfRange
  | .playSet =>
    match v.payload with
    | some b => .next { v with core := v.core.raisePlay b 1 }
    | none => .refused .registerOutOfRange
  | .nop | .play _ | .instrument _ | .wait16 _ | .wait _ | .ticks16 _ | .ticks _ | .reset
  | .syscall _ | .ifNotRepeat | .ifRepeat | .repeatOp | .sectionOp | .jump _ | .bareNote _ =>
    v.lift (exec i v.core)

/-- The sum `base + pc + k` before it is reduced (20_memory.md R52). At this hardware's width of 16 how
`pc + k` passes 65535 makes no difference, since the whole sum is reduced there: operands of an
instruction at offset 65535 stand at offsets 0 and 1 (10_state.md R26, 20_memory.md R53). For a width
above 16 the spec gives no form of the address: here `pc + k` runs on to 65536 and 65537 within the sum,
and is not reduced to an offset of 0 or 1 first (notes/assumptions/6.md). DESIGN CHOICE. -/
def unreducedAddr (s : State) (k : Nat) : Nat := s.base.toNat + s.cursor.toNat + k

/-- `A(k)` at the width `PADDR_BITS` of `c` (20_memory.md R52, decision D3). -/
def codeAddrBy (c : Config) (s : State) (k : Nat) : Nat := unreducedAddr s k % 2 ^ c.paddrBits

/-- The byte at `A(k)`. Memory here may list cells at 65536 and up, for a width above 16. -/
def codeByteBy (c : Config) (s : State) (k : Nat) : Byte := Memory.lookup (codeAddrBy c s k) s.pmem

/-- The instruction at the cursor. -/
def fetchBy (c : Config) (s : State) : Instr :=
  decode (codeByteBy c s 0) (codeByteBy c s 1) (codeByteBy c s 2)

/-- The bytes of the instruction at the cursor that count as fetched: all those of its format. A
not-taken `IFJUMP` or `IFNOTJUMP` need not read its operand (20_memory.md R58); here its two operand
bytes count all the same, so a fetch limit or a refused wrap that they meet refuses it, taken or not
(notes/assumptions/22.md). DESIGN CHOICE. -/
def fetchedBytes (c : Config) (s : State) : List Nat :=
  List.range (formatLength (opcodeFormat (codeByteBy c s 0)))

/-- Whether every byte fetched lies below the fetch limit, if there is one (20_memory.md R51); the operand
of a not-taken conditional jump counts too (`fetchedBytes`; notes/assumptions/22.md). DESIGN CHOICE. -/
def fetchAllowed (c : Config) (s : State) : Bool :=
  match c.fetchLimit with
  | none => true
  | some n => (fetchedBytes c s).all fun k => decide (codeAddrBy c s k < n)

/-- Whether no address of the fetch wraps, where a wrap is refused (93_implementation_defined.md U11). -/
def fetchUnwrapped (c : Config) (s : State) : Bool :=
  !c.wrapRefused || (fetchedBytes c s).all fun k => decide (unreducedAddr s k < 2 ^ c.paddrBits)

/-- `Exec1` on the instruction at the cursor under the parameters `c`, refused where they refuse its
fetch. -/
def variantInstrStep (c : Config) (v : Variant) : Host.Outcome Variant Fault Refusal :=
  if fetchUnwrapped c v.core then
    if fetchAllowed c v.core then execVariant c (fetchBy c v.core) v else .refused .fetchBeyondImage
  else .refused .fetchWraps

/-- Step 6 of the dispatch under the parameters `c` (40_dispatch.md R106, R109). -/
def variantLoop (c : Config) : Nat → Variant → Host.Outcome Variant Fault Refusal
  | 0, v => .next v
  | n + 1, v =>
    match variantInstrStep c v with
    | .next w => if endsPhase c (fetchBy c v.core) then .next w else variantLoop c n w
    | .fault r => .fault r
    | .refused r => .refused r

/-- `Dispatch` under the parameters `c` (40_dispatch.md R100). -/
def variantStep (c : Config) (v : Variant) : Host.Outcome Variant Fault Refusal :=
  if v.core.halted then .next { v with core := v.core.beginCall.emit .halt }
  else if v.core.tickCounter ≠ 0 then .next { v with core := v.core.beginCall.throttle }
  else if v.core.waitCounter ≠ 0 then .next { v with core := v.core.beginCall.openPhase.consumeWait }
  else variantLoop c c.loopBound { v with core := v.core.beginCall.openPhase }

/-- Construction and reset under the parameters `c` (70_reset_and_hazards.md R230, R231). -/
def Variant.construct (c : Config) (base : Word) (m : Memory) : Variant :=
  Variant.ofState { toTrack := Track.ofDefaults c.defaults base, pmem := m, events := [] }

end Sys2Proof.Machine
end

