-- ==== Sys2Proof/Safety.lean ====
section
/-! DEFINITION. The terms claims are stated in: the kinds of a call, what a call fetches, the
invariants, and when a run stays inside what the source document fixes. -/

namespace Sys2Proof.Machine

/-! ### The kinds of a call (40_dispatch.md R112) -/

/-- 40_dispatch.md R112. -/
inductive CallKind where
  | halted
  | throttled
  | waiting
  | ended
  | truncated
  deriving DecidableEq, Repr

/-- How many instructions the loop runs from `s` when at most `n` may run. -/
def loopFetches : Nat → State → Nat
  | 0, _ => 0
  | n + 1, s =>
    match instrStep s with
    | .next t => if endsPhase Config.hardware s.fetch then 1 else 1 + loopFetches n t
    | .fault _ => 1
    | .refused _ => 1

/-- Whether one of the next `n` instructions ends the phase. -/
def loopEnds : Nat → State → Bool
  | 0, _ => false
  | n + 1, s =>
    match instrStep s with
    | .next t => endsPhase Config.hardware s.fetch || loopEnds n t
    | .fault _ => false
    | .refused _ => false

/-- The state in which the instruction loop of a call starts. -/
def State.phaseStart (s : State) : State := s.beginCall.openPhase

/-- The kind of the call requested in `s`. -/
def callKind (s : State) : CallKind :=
  if s.halted then .halted
  else if s.tickCounter ≠ 0 then .throttled
  else if s.waitCounter ≠ 0 then .waiting
  else if loopEnds Config.hardware.loopBound s.phaseStart then .ended
  else .truncated

/-- The opcode fetches of the call requested in `s` (40_dispatch.md R109, R111). -/
def callFetches (s : State) : Nat :=
  if s.halted then 0
  else if s.tickCounter ≠ 0 then 0
  else if s.waitCounter ≠ 0 then 0
  else loopFetches Config.hardware.loopBound s.phaseStart

/-- The next call reaches the instruction loop (40_dispatch.md R112, fourth and fifth row). -/
def State.gatesOpen (s : State) : Prop := s.halted = false ∧ s.tickCounter = 0 ∧ s.waitCounter = 0

/-! ### Invariants (10_state.md R42) -/

/-- At most one of the three pulse flags is true (R29, R42 b). -/
def Track.onePulse (t : Track) : Bool :=
  !(t.syscallPulse && t.instrumentPulse) && !(t.syscallPulse && t.playPulse)
    && !(t.instrumentPulse && t.playPulse)

/-- What every dispatch call and every host transaction keeps: one pulse at most, and program memory in
its canonical form. -/
def State.inv (s : State) : Prop := s.onePulse = true ∧ s.pmem.wf = true

/-- `BUF_LEN` is in 0 to 65536, and the buffer leaves no location unused before it passes the last. -/
def System.bufferWf (y : System) : Prop :=
  y.bufLen ≤ Memory.size ∧ (y.beyond = [] ∨ y.bufLen = Memory.size)

/-- The same of a system: program memory in its canonical form, the buffer's length in range, one pulse
at most on every Track. -/
def System.inv (y : System) : Prop :=
  y.pmem.wf = true ∧ y.bufferWf ∧ ∀ t ∈ y.tracks, t.onePulse = true

/-! ### What the source document fixes -/

/-- The exact result of the instruction on the register (43_register.md R160). -/
def exactRegister (i : Instr) (x : Int) : Int :=
  match i with
  | .setReg imm => imm.toNat
  | .add imm => x + imm.toNat
  | .sub imm => x - imm.toNat
  | _ => x

/-- The exact result stays in 0 to 255, where both values of `REG_ARITH` agree (10_state.md R22). -/
def noOverflow (i : Instr) (x : Int) : Prop := 0 ≤ exactRegister i x ∧ exactRegister i x < 256

/-- Every byte of the format of the instruction at the cursor lies in the first `bufLen` bytes
(20_memory.md R51); a conditional jump's operand counts, taken or not (notes/assumptions/22.md). -/
def State.insideImage (s : State) (bufLen : Nat) : Prop :=
  ∀ k, k < formatLength (opcodeFormat (s.codeByte 0)) → (s.codeAddr k).toNat < bufLen

/-- The instruction at the cursor is one whose meaning does not rest on a decision for cases that the
source document leaves open: inside the image, no address wrap, no register overflow
(93_implementation_defined.md U1, U3, U11). -/
def State.sourceFixed (s : State) (bufLen : Nat) : Prop :=
  s.insideImage bufLen
    ∧ s.base.toNat + s.cursor.toNat + formatLength (opcodeFormat (s.codeByte 0)) ≤ Memory.size
    ∧ noOverflow s.fetch s.register.toNat

/-! ### Frames -/

/-- Every byte of program memory reads as before (20_memory.md R57). -/
def sameMemory (s t : State) : Prop := ∀ a : Word, t.pmem.read a = s.pmem.read a

/-- The cursor has moved on by `n`, modulo 2^16 (10_state.md R25, R26). -/
def movedBy (s t : State) (n : Nat) : Prop := t.cursor.toNat = (s.cursor.toNat + n) % 65536

/-- What a comparison does (43_register.md R154 to R158): from `s`, `i` overwrites `acc` with `holds` and
moves on by 2, changes nothing else, continues the loop, and is encoded as `op` and its operand. -/
def comparesAs (s : State) (i : Instr) (op imm : Byte) (holds : Prop) : Prop :=
  ∃ t, exec i s = .next t ∧ (t.accumulator = true ↔ holds) ∧ movedBy s t 2
    ∧ t = { s with accumulator := t.accumulator, cursor := t.cursor } ∧ sameMemory s t
    ∧ controlOutcome Config.hardware i = .continueLoop ∧ encode i = [op, imm]

/-- What an instrument change does (45_events.md R180, R181): latch, pulse and event carry `value`. -/
def changesInstrument (s : State) (i : Instr) (value : Byte) (len : Nat) : Prop :=
  ∃ t, exec i s = .next t ∧ t.instrument = value ∧ t.instrumentPulse = true ∧ movedBy s t len
    ∧ t.events = s.events ++ [.instrument value]
    ∧ t = { s with instrument := t.instrument, instrumentPulse := t.instrumentPulse,
                   cursor := t.cursor, events := t.events }
    ∧ sameMemory s t ∧ controlOutcome Config.hardware i = .endPhase

/-- What a note does (45_events.md R182 to R184): latch, pulse and event carry `value`. -/
def playsNote (s : State) (i : Instr) (value : Byte) (len : Nat) : Prop :=
  ∃ t, exec i s = .next t ∧ t.note = value ∧ t.playPulse = true ∧ movedBy s t len
    ∧ t.events = s.events ++ [.play value]
    ∧ t = { s with note := t.note, playPulse := t.playPulse, cursor := t.cursor, events := t.events }
    ∧ sameMemory s t ∧ controlOutcome Config.hardware i = .endPhase

/-- Program memory, and the part of it that is the assembler's buffer, are as before. -/
def sameBuffer (y z : System) : Prop := z.pmem = y.pmem ∧ z.bufLen = y.bufLen ∧ z.beyond = y.beyond

/-- Each byte of the assembler's buffer that has a location stands at its sequence index (20_memory.md
R50). -/
def System.mirrored (y : System) : Prop :=
  ∀ k b, y.contents[k]? = some b → k < Memory.size → y.pmem.read (BitVec.ofNat 16 k) = b

end Sys2Proof.Machine
end

