-- ==== Sys2Proof/Certificates/Slice0/Obligations.lean ====
section
/-! DEFINITION. The statements for the provers. Each says one thing the spec says an instruction, a
dispatch call or a host transaction does, over all states. -/

open Sys2Proof Sys2Proof.Machine

/-! ### Control instructions (41_control.md) -/

/-- R120, which rests on conflict C2 and decision D8 (notes/assumptions/8.md). -/
def Obligations.NopRestsAndEndsPhase : Prop :=
  ∀ s : State, ∃ t, exec .nop s = .next t ∧ movedBy s t 1
    ∧ t = { s with cursor := t.cursor } ∧ sameMemory s t
    ∧ controlOutcome Config.hardware .nop = .endPhase
    ∧ controlOutcome { Config.hardware with nopEndsPhase := false } .nop = .continueLoop

/-- The step of R121; the advance of 1 is conflict C1's resolution (notes/assumptions/10.md). -/
def Obligations.HaltSetsHaltedAndContinues : Prop :=
  ∀ s : State, ∃ t, exec .halt s = .next t ∧ t.halted = true ∧ movedBy s t 1
    ∧ t.events = s.events ++ [.halt]
    ∧ t = { s with halted := t.halted, cursor := t.cursor, events := t.events } ∧ sameMemory s t
    ∧ controlOutcome Config.hardware .halt = .continueLoop ∧ encode .halt = [0xFF]

/-- R122: the operand is copied to the cursor unchecked, and is relative to `base`. -/
def Obligations.JumpCopiesOperandToCursor : Prop :=
  ∀ (s : State) (target : Word), ∃ t, exec (.jump target) s = .next t ∧ t.cursor = target
    ∧ t.codeAddr 0 = s.base + target ∧ t = { s with cursor := t.cursor } ∧ sameMemory s t
    ∧ controlOutcome Config.hardware (.jump target) = .continueLoop
    ∧ encode (.jump target) = [0xFE, lowByte target, highByte target]

/-- R123 and R124, whose not-taken increment rests on conflict C4 and decision D9
(notes/assumptions/9.md). -/
def Obligations.ConditionalJumpsTestAccumulator : Prop :=
  ∀ (s : State) (target : Word),
    (∃ t, exec (.ifJump target) s = .next t ∧ t = { s with cursor := t.cursor } ∧ sameMemory s t
      ∧ (if s.accumulator then t.cursor = target else movedBy s t 2))
    ∧ (∃ t, exec (.ifNotJump target) s = .next t ∧ t = { s with cursor := t.cursor }
      ∧ sameMemory s t ∧ (if s.accumulator then movedBy s t 2 else t.cursor = target))
    ∧ controlOutcome Config.hardware (.ifJump target) = .continueLoop
    ∧ controlOutcome Config.hardware (.ifNotJump target) = .continueLoop

/-- The hazard of R123, R124 and R240: a conditional jump at the cursor that is not taken leaves the
cursor on the high byte of its own operand (decision D9, notes/assumptions/9.md). -/
def Obligations.NotTakenJumpLandsOnHighByte : Prop :=
  ∀ (s t : State) (target : Word),
    (s.fetch = .ifJump target ∧ s.accumulator = false
      ∨ s.fetch = .ifNotJump target ∧ s.accumulator = true) →
    instrStep s = .next t → t.codeByte 0 = highByte target

/-- R240: a not-taken conditional jump to a target below 256 costs one silent active phase and comes out
behind the instruction (decisions D8 and D9, notes/assumptions/8.md and 9.md). -/
def Obligations.NotTakenJumpBelow256IsSilentPhase : Prop :=
  ∀ (s : State) (target : Word), s.gatesOpen → target.toNat < 256 →
    (s.fetch = .ifJump target ∧ s.accumulator = false
      ∨ s.fetch = .ifNotJump target ∧ s.accumulator = true) →
    step s = .next (s.phaseStart.jumpTo (s.cursor + 3)) ∧ callFetches s = 2

/-- The step of R125: the anchor is the offset of the `SECTION` byte itself. -/
def Obligations.SectionSavesItsOwnOffset : Prop :=
  ∀ s : State, ∃ t, exec .sectionOp s = .next t ∧ t.sectionAnchor = s.cursor ∧ movedBy s t 1
    ∧ t = { s with sectionAnchor := t.sectionAnchor, cursor := t.cursor } ∧ sameMemory s t
    ∧ controlOutcome Config.hardware .sectionOp = .continueLoop ∧ encode .sectionOp = [0xFB]

/-- The steps of R126, R127, R128. -/
def Obligations.RepeatFamilyReturnsToAnchor : Prop :=
  ∀ s : State,
    (∃ t, exec .repeatOp s = .next t ∧ t.cursor = s.sectionAnchor
      ∧ t = { s with cursor := t.cursor } ∧ sameMemory s t)
    ∧ (∃ t, exec .ifRepeat s = .next t ∧ t = { s with cursor := t.cursor } ∧ sameMemory s t
      ∧ (if s.accumulator then t.cursor = s.sectionAnchor else movedBy s t 1))
    ∧ (∃ t, exec .ifNotRepeat s = .next t ∧ t = { s with cursor := t.cursor } ∧ sameMemory s t
      ∧ (if s.accumulator then movedBy s t 1 else t.cursor = s.sectionAnchor))
    ∧ controlOutcome Config.hardware .repeatOp = .continueLoop
    ∧ controlOutcome Config.hardware .ifRepeat = .continueLoop
    ∧ controlOutcome Config.hardware .ifNotRepeat = .continueLoop

/-! ### System instructions (42_system.md) -/

/-- The step of R140. -/
def Obligations.SyscallLatchesAndSignals : Prop :=
  ∀ (s : State) (code : Word), ∃ t, exec (.syscall code) s = .next t ∧ t.syscallCode = code
    ∧ t.syscallPulse = true ∧ movedBy s t 3 ∧ t.events = s.events ++ [.syscall code]
    ∧ t = { s with syscallCode := t.syscallCode, syscallPulse := t.syscallPulse,
                   cursor := t.cursor, events := t.events }
    ∧ sameMemory s t ∧ controlOutcome Config.hardware (.syscall code) = .endPhase
    ∧ encode (.syscall code) = [0xF7, lowByte code, highByte code]

/-- R141: the byte 0xF6 plays note 246 and resets nothing. -/
def Obligations.ResetOpcodePlaysNote246 : Prop :=
  ∀ (s : State) (b1 b2 : Byte), decode 0xF6 b1 b2 = .reset ∧ playsNote s .reset 246 1
    ∧ encode .reset = [0xF6]

/-! ### Register instructions (43_register.md) -/

/-- R151. -/
def Obligations.SetWritesImmediate : Prop :=
  ∀ (s : State) (imm : Byte), (∃ t, exec (.setReg imm) s = .next t ∧ t.register = imm
      ∧ movedBy s t 2 ∧ t = { s with register := t.register, cursor := t.cursor }
      ∧ sameMemory s t ∧ controlOutcome Config.hardware (.setReg imm) = .continueLoop
      ∧ encode (.setReg imm) = [0xF5, imm])
    ∧ ∀ (c : Config) (v : Variant), ∃ w, execVariant c (.setReg imm) v = .next w
      ∧ 0 ≤ w.wide ∧ w.wide < 256

/-- The step of R152 under `REG_ARITH = wrap8`, decision D1 (notes/assumptions/7.md). -/
def Obligations.AddReducesModulo256 : Prop :=
  ∀ (s : State) (imm : Byte), ∃ t, exec (.add imm) s = .next t
    ∧ t.register.toNat = (s.register.toNat + imm.toNat) % 256
    ∧ movedBy s t 2 ∧ t = { s with register := t.register, cursor := t.cursor }
    ∧ sameMemory s t ∧ controlOutcome Config.hardware (.add imm) = .continueLoop

/-- The step of R153 under `REG_ARITH = wrap8`, decision D1 (notes/assumptions/7.md). -/
def Obligations.SubReducesModulo256 : Prop :=
  ∀ (s : State) (imm : Byte), ∃ t, exec (.sub imm) s = .next t
    ∧ (t.register.toNat : Int) = ((s.register.toNat : Int) - (imm.toNat : Int)) % 256
    ∧ movedBy s t 2 ∧ t = { s with register := t.register, cursor := t.cursor }
    ∧ sameMemory s t ∧ controlOutcome Config.hardware (.sub imm) = .continueLoop

/-- R154 to R158: the five comparisons, unsigned, register on the left. -/
def Obligations.ComparisonsOverwriteAccumulator : Prop :=
  ∀ (s : State) (imm : Byte),
    comparesAs s (.equal imm) 0xF2 imm (s.register.toNat = imm.toNat)
    ∧ comparesAs s (.lt imm) 0xF1 imm (s.register.toNat < imm.toNat)
    ∧ comparesAs s (.gt imm) 0xF0 imm (s.register.toNat > imm.toNat)
    ∧ comparesAs s (.ltEqual imm) 0xEF imm (s.register.toNat ≤ imm.toNat)
    ∧ comparesAs s (.gtEqual imm) 0xEE imm (s.register.toNat ≥ imm.toNat)

/-! ### Timing instructions (44_timing.md) -/

/-- The steps of R170 and R171: `tickCounter` is not touched. -/
def Obligations.TicksSetsReloadValue : Prop :=
  ∀ (s : State) (imm : Byte) (imm16 : Word),
    (∃ t, exec (.ticks imm) s = .next t ∧ t.tickRate.toNat = imm.toNat ∧ movedBy s t 2
      ∧ t = { s with tickRate := t.tickRate, cursor := t.cursor } ∧ sameMemory s t)
    ∧ (∃ t, exec (.ticks16 imm16) s = .next t ∧ t.tickRate = imm16 ∧ movedBy s t 3
      ∧ t = { s with tickRate := t.tickRate, cursor := t.cursor } ∧ sameMemory s t)
    ∧ controlOutcome Config.hardware (.ticks imm) = .endPhase
    ∧ controlOutcome Config.hardware (.ticks16 imm16) = .endPhase

/-- The steps of R172 and R173. -/
def Obligations.WaitSetsPauseCounter : Prop :=
  ∀ (s : State) (imm : Byte) (imm16 : Word),
    (∃ t, exec (.wait imm) s = .next t ∧ t.waitCounter.toNat = imm.toNat ∧ movedBy s t 2
      ∧ t = { s with waitCounter := t.waitCounter, cursor := t.cursor } ∧ sameMemory s t)
    ∧ (∃ t, exec (.wait16 imm16) s = .next t ∧ t.waitCounter = imm16 ∧ movedBy s t 3
      ∧ t = { s with waitCounter := t.waitCounter, cursor := t.cursor } ∧ sameMemory s t)
    ∧ controlOutcome Config.hardware (.wait imm) = .endPhase
    ∧ controlOutcome Config.hardware (.wait16 imm16) = .endPhase

/-! ### Event instructions (45_events.md) -/

/-- The steps of R180 and R181: the latch, the pulse and the event carry one value, the operand or
`x[0]`. -/
def Obligations.InstrumentLatchesAndSignals : Prop :=
  ∀ (s : State) (imm : Byte), changesInstrument s (.instrument imm) imm 2
    ∧ changesInstrument s .instrumentSet s.register 1
    ∧ encode (.instrument imm) = [0xE9, imm] ∧ encode .instrumentSet = [0xE8]

/-- The steps of R182 and R183. -/
def Obligations.PlayLatchesAndSignals : Prop :=
  ∀ (s : State) (imm : Byte), playsNote s (.play imm) imm 2 ∧ playsNote s .playSet s.register 1
    ∧ encode (.play imm) = [0xE7, imm] ∧ encode .playSet = [0xE6]

/-- R184: every byte 0x01 to 0xE5, and 0xF6, plays itself, as `PLAY` of the same value does at length
2. -/
def Obligations.BareNotePlaysOpcode : Prop :=
  ∀ (s : State) (n b1 b2 : Byte), (1 ≤ n.toNat ∧ n.toNat ≤ 0xE5 ∨ n.toNat = 0xF6) →
    playsNote s (decode n b1 b2) n 1 ∧ playsNote s (.bareNote n) n 1 ∧ encode (decode n b1 b2) = [n]
      ∧ playsNote s (.play n) n 2

/-- 30_encoding.md R94 and 45_events.md R184: a bare note differs from `PLAY` of the same value in its
length only. -/
def Obligations.BareNoteIsPlayButForLength : Prop :=
  ∀ (s : State) (n : Byte), ∃ t u, exec (.play n) s = .next t ∧ exec (.bareNote n) s = .next u
    ∧ u = { t with cursor := s.cursor + 1 } ∧ t = { u with cursor := s.cursor + 2 }

/-! ### Encoding (30_encoding.md) -/

/-- A few words written out from the table of R75 and the examples of R74 and 95_test_vectors.md. -/
def Obligations.SampleWordsDecode : Prop :=
  decodeTableWord 24 0x1234FE = some (.jump 0x1234) ∧ decodeTableWord 16 0x05F5 = some (.setReg 5)
    ∧ decodeTableWord 24 0x012CEC = some (.ticks16 300) ∧ decodeTableWord 8 0xE8 = some .instrumentSet
    ∧ decodeTableWord 24 0xFFFFF7 = some (.syscall 65535) ∧ decodeTableWord 8 0xF6 = some .reset
    ∧ decodeTableWord 8 0xE5 = some (.bareNote 229) ∧ decodeTableWord 8 0x00 = some .nop

/-- R76: decoding never fails on an opcode byte; a byte that is none of the 26 recognised values is a
bare note, a recognised one is not; and every opcode is told apart by its whole byte. -/
def Obligations.UnrecognisedByteIsBareNote : Prop :=
  (∀ (b0 b1 b2 : Byte) (rest : List Byte), ∃ i r, decodeBytes (b0 :: b1 :: b2 :: rest) = .ok (i, r))
    ∧ (∀ b0 b1 b2 : Byte, if b0.toNat = 0 ∨ 0xE6 ≤ b0.toNat ∧ b0.toNat ≤ 0xF5 ∨ 0xF7 ≤ b0.toNat
        then decode b0 b1 b2 ≠ .reset ∧ ∀ n, decode b0 b1 b2 ≠ .bareNote n
        else ∀ s : State, exec (decode b0 b1 b2) s = exec (.bareNote b0) s)
    ∧ ∀ b0 b1 b2 c0 c1 c2 : Byte, decode b0 b1 b2 = decode c0 c1 c2 → b0 = c0

/-- R72: the format of every opcode byte. -/
def Obligations.FormatsByOpcode : Prop :=
  ∀ b0 b1 b2 : Byte, instrFormat (decode b0 b1 b2) =
    if b0 ∈ [(0xFE : Byte), 0xFD, 0xFC, 0xF7, 0xEC, 0xEA] then Format.f16
    else if b0 ∈ [(0xF5 : Byte), 0xF4, 0xF3, 0xF2, 0xF1, 0xF0, 0xEF, 0xEE, 0xED, 0xEB, 0xE9, 0xE7] then
      Format.f8
    else Format.f0

/-- R74: the 16-bit operand of the instruction at the cursor is `b1 + 256 * b2`, and as a jump target it
is copied to the cursor unchanged. -/
def Obligations.Imm16IsLittleEndian : Prop :=
  ∀ s : State, s.imm16.toNat = (s.codeByte 1).toNat + 256 * (s.codeByte 2).toNat
    ∧ (s.codeByte 0 = 0xFE → s.fetch = .jump s.imm16
        ∧ instrStep s = .next { s with cursor := s.imm16 })
    ∧ (s.codeByte 0 = 0xFD → s.fetch = .ifJump s.imm16
        ∧ (s.accumulator = true → instrStep s = .next { s with cursor := s.imm16 }))
    ∧ (s.codeByte 0 = 0xFC → s.fetch = .ifNotJump s.imm16
        ∧ (s.accumulator = false → instrStep s = .next { s with cursor := s.imm16 }))
    ∧ (s.codeByte 0 = 0xF7 → s.fetch = .syscall s.imm16)
    ∧ (s.codeByte 0 = 0xEC → s.fetch = .ticks16 s.imm16)
    ∧ (s.codeByte 0 = 0xEA → s.fetch = .wait16 s.imm16)

/-- Decoding the encoding of a well-formed instruction gives it back, with every operand (R70, R75). -/
def Obligations.DecodeOfEncode : Prop :=
  ∀ (i : Instr) (rest : List Byte), i.wf = true → decodeBytes (encode i ++ rest) = .ok (i, rest)

/-- What the decoder accepts is well formed and is the encoding of what it answers, so each byte string
has one meaning (R71, R76). -/
def Obligations.EncodeOfDecode : Prop :=
  ∀ (bs rest : List Byte) (i : Instr), decodeBytes bs = .ok (i, rest) →
    i.wf = true ∧ bs = encode i ++ rest

/-- 40_dispatch.md R108: the control outcome is fixed by the opcode byte, whatever the operands (`NOP`
by conflict C2 and decision D8, notes/assumptions/8.md). -/
def Obligations.ControlOutcomeFixedByOpcode : Prop :=
  ∀ b0 b1 b2 : Byte, endsPhase Config.hardware (decode b0 b1 b2) = true
    ↔ (b0.toNat ≤ 0xED ∨ b0.toNat = 0xF6 ∨ b0.toNat = 0xF7)

/-! ### The assembler (30_encoding.md) -/

/-- R92: the two laws of the coercion, the second read back from program memory. -/
def Obligations.CoercionLaws : Prop :=
  ∀ v : Int, (coerce8 (.int v)).toNat = v.natAbs % 256
    ∧ coerce8 (.int (coerce8 (.int v)).toNat) = coerce8 (.int v)
    ∧ (coerce16 (.int v)).toNat = v.natAbs % 65536
    ∧ (∀ (m : Memory) (a : Word), (m.writeBytes a (AsmCall.short (.int v)).bytes).read16 a
        = coerce16 (.int v))
    ∧ ∀ (m : Memory) (a : Word) (op : Mnemonic16),
        (m.writeBytes a (AsmCall.op16 op (.int v)).bytes).read16 (a + 1) = coerce16 (.int v)

/-- R90, R94: every mnemonic emits one machine instruction, with its coerced operand; `BYTE(n)` with n
in 1 to 229 emits a bare note. -/
def Obligations.MnemonicEmitsOneInstruction : Prop :=
  (∀ (c : AsmCall) (i : Instr) (rest : List Byte), c.instr = some i →
      decodeBytes (c.bytes ++ rest) = .ok (i, rest))
    ∧ ∀ (n : Int) (rest : List Byte), 1 ≤ n → n ≤ 229 →
      decodeBytes ((AsmCall.byte (.int n)).bytes ++ rest) = .ok (.bareNote (BitVec.ofInt 8 n), rest)

/-- 20_memory.md R50: the assembler's buffer is program memory, each byte at its sequence index; an
assembler call appends its bytes, and what the host writes is what the buffer holds (what becomes of an
index of 65536 or more, and that a host write above the length does not lengthen the buffer:
notes/assumptions/19.md). -/
def Obligations.AssembledBytesAreInMemory : Prop :=
  ∀ y : System, y.bufferWf →
    y.mirrored
    ∧ (∀ c : AsmCall, (y.assemble c).bufferWf ∧ (y.assemble c).contents = y.contents ++ c.bytes)
    ∧ ∀ (a : Word) (b : Byte), (y.writeByte a b).contents = y.contents.set a.toNat b

/-! ### Program memory (20_memory.md) -/

/-- The byte addresses of one instruction, formed modulo 2^16 (R52, R53; decision D3,
notes/assumptions/6.md), and the instruction decoded from the bytes there. That all three bytes are
looked at is the model's reading (notes/assumptions/13.md): R57 and R58 read those of the format only,
and `InstructionReadsOnlyItsBytes` says that no other byte matters. -/
def Obligations.FetchReadsThreeWrappedAddresses : Prop :=
  ∀ s : State, (∀ k : Nat, (s.codeAddr k).toNat = (s.base.toNat + s.cursor.toNat + k) % 65536)
    ∧ s.fetch = decode (s.pmem.read (s.codeAddr 0)) (s.pmem.read (s.codeAddr 1))
        (s.pmem.read (s.codeAddr 2))

/-- R57, R58: an instruction step depends on program memory through the bytes of its own format only. -/
def Obligations.InstructionReadsOnlyItsBytes : Prop :=
  ∀ (s t : State) (m : Memory),
    (∀ k, k < formatLength (opcodeFormat (s.codeByte 0)) → m.read (s.codeAddr k) = s.codeByte k) →
    instrStep s = .next t → instrStep { s with pmem := m } = .next { t with pmem := m }

/-- R54, R62: a byte the host writes is the byte read there, and no other byte changes. -/
def Obligations.ReadAfterWrite : Prop :=
  ∀ (m : Memory) (a a' : Word) (b : Byte),
    (m.write a b).read a' = if a' = a then b else m.read a'

/-- Two canonical memories that read the same everywhere are the same data, so `pmem` is a total map of
65536 bytes (R51; notes/assumptions/2.md). -/
def Obligations.CanonicalMemoryIsItsReads : Prop :=
  ∀ m m' : Memory, m.wf = true → m'.wf = true → (∀ a : Word, m.read a = m'.read a) → m = m'

/-- R57: no instruction, no dispatch call and no reset writes program memory. -/
def Obligations.NoStepWritesMemory : Prop :=
  (∀ (i : Instr) (s t : State), exec i s = .next t → sameMemory s t)
    ∧ (∀ s t : State, step s = .next t → t.pmem = s.pmem ∧ sameMemory s t)
    ∧ ∀ s : State, sameMemory s s.hostReset

/-! ### The dispatch call (40_dispatch.md) -/

/-- R101: a halted call emits one `Halt` and changes no field, and so does every later call; the `HALT`
instruction itself emits one too. -/
def Obligations.HaltedCallOnlyEmitsHalt : Prop :=
  (∀ s : State, s.halted = true → step s = .next { s with events := [.halt] } ∧ callFetches s = 0
    ∧ ∀ n : Nat, dispatchStream (n + 1) s
        = .next ({ s with events := [.halt] }, List.replicate (n + 1) .halt))
    ∧ ∀ s : State, ∃ t, exec .halt s = .next t ∧ t.halted = true ∧ t.events = s.events ++ [.halt]

/-- R102: a throttled call decrements `tickCounter` and does nothing else. -/
def Obligations.ThrottledCallOnlyDecrements : Prop :=
  ∀ s : State, s.halted = false → 0 < s.tickCounter.toNat →
    ∃ t, step s = .next t ∧ t.tickCounter.toNat = s.tickCounter.toNat - 1 ∧ t.events = []
      ∧ t = { s with tickCounter := t.tickCounter, events := t.events } ∧ callFetches s = 0

/-- Steps 3 to 5 of R103, R104 and R105. -/
def Obligations.WaitingPhaseReloadsClearsAndCountsDown : Prop :=
  ∀ s : State, s.halted = false → s.tickCounter = 0 → 0 < s.waitCounter.toNat →
    ∃ t, step s = .next t ∧ t.waitCounter.toNat = s.waitCounter.toNat - 1
      ∧ t = { s with tickCounter := s.tickRate, syscallPulse := false, instrumentPulse := false,
                     playPulse := false, waitCounter := t.waitCounter, events := [] }
      ∧ callFetches s = 0

/-- Step 6 (R106, R108): when the bytes at the cursor decode to `i`, the call reloads and clears, runs
`i`, and returns or goes on with one iteration fewer. -/
def Obligations.StepRunsDecodedInstruction : Prop :=
  ∀ (s : State) (i : Instr) (rest : List Byte), s.gatesOpen →
    decodeBytes [s.codeByte 0, s.codeByte 1, s.codeByte 2] = .ok (i, rest) →
    i.wf = true ∧ instrStep s = exec i s
      ∧ s.phaseStart = { s with tickCounter := s.tickRate, syscallPulse := false,
                                instrumentPulse := false, playPulse := false, events := [] }
      ∧ ∃ t, exec i s.phaseStart = .next t
        ∧ step s = if endsPhase Config.hardware i then .next t
            else phaseLoop exec (endsPhase Config.hardware) 254 t

/-- 41_control.md R121 and R241: the instruction after `HALT` runs in the same call, and its event
follows the `Halt`. -/
def Obligations.InstructionAfterHaltRuns : Prop :=
  ∀ (s t u : State), s.gatesOpen → s.fetch = .halt → exec .halt s.phaseStart = .next t →
    endsPhase Config.hardware t.fetch = true → exec t.fetch t = .next u →
    step s = .next u ∧ u.halted = true ∧ ∃ es, u.events = .halt :: es

/-- R109: at most 255 instructions run in a call, a truncated call runs exactly 255, and the count is of
what the call runs: with the gates open the call is its loop over exactly that many iterations, at least
one; with a gate closed it runs none. -/
def Obligations.AtMost255Fetches : Prop :=
  ∀ s : State, callFetches s ≤ 255 ∧ (callKind s = .truncated → callFetches s = 255)
    ∧ (s.gatesOpen → 1 ≤ callFetches s
        ∧ step s = phaseLoop exec (endsPhase Config.hardware) (callFetches s) s.phaseStart)
    ∧ (¬ s.gatesOpen → callFetches s = 0)

/-- The worked example of R109 in general: where control never leaves a set of unconditional jumps, the
call is cut after exactly 255 fetches, silently, with the cursor still in the set. -/
def Obligations.JumpCycleIsTruncated : Prop :=
  ∀ (s : State) (cycle : Word → Prop), s.gatesOpen → cycle s.cursor →
    (∀ c, cycle c → ∃ c', cycle c' ∧ (s.jumpTo c).fetch = .jump c') →
    ∃ t, step s = .next t ∧ cycle t.cursor ∧ t = s.phaseStart.jumpTo t.cursor
      ∧ callFetches s = 255 ∧ callKind s = .truncated

/-- R109, R110. The loop splits: `m + n` iterations are `m` and then `n` more, unless one of the first
`m` ends the phase. A call cut at the bound that leaves the machine running is followed by `tickRate`
throttled calls, and the call after them runs the loop from where the cut one stopped, with a fresh 255.
A cut call in which a `HALT` ran is followed by halted calls (vector B3). -/
def Obligations.TruncationResumes : Prop :=
  (∀ (m n : Nat) (s t : State), loopEnds m s = false →
    phaseLoop exec (endsPhase Config.hardware) m s = .next t →
    phaseLoop exec (endsPhase Config.hardware) (m + n) s
      = phaseLoop exec (endsPhase Config.hardware) n t)
  ∧ (∀ s t : State, callKind s = .truncated → step s = .next t → t.halted = false →
    (∀ k, k < s.tickRate.toNat → ∃ u, core.run k t = .next u ∧ callKind u = .throttled)
    ∧ ∃ u, core.run s.tickRate.toNat t = .next u ∧ u.gatesOpen ∧ u.cursor = t.cursor
      ∧ u.phaseStart = { t with events := [] }
      ∧ step u = phaseLoop exec (endsPhase Config.hardware) 255 { t with events := [] })
  ∧ ∀ s t : State, callKind s = .truncated → step s = .next t → t.halted = true →
    ∀ n, ∃ u, core.run n t = .next u ∧ callKind u = .halted ∧ u.toTrack = t.toTrack

/-- R116, 60_exceptions.md R200: every instruction and every call answers a next state, whatever the
state and whatever the memory holds. -/
def Obligations.EveryCallReturns : Prop :=
  (∀ (i : Instr) (s : State), ∃ t, exec i s = .next t) ∧ ∀ s : State, ∃ t, step s = .next t

/-- R111, 45_events.md R185: the events of a call are some `Halt`s and then at most one other. R111's
clause that 255 events occur only when all 255 instructions are `HALT` is not stated: 254 `HALT`s and an
instruction that signals also give 255 (notes/assumptions/23.md). -/
def Obligations.EventsOfACall : Prop :=
  ∀ s t : State, step s = .next t → t.events.length ≤ 255
    ∧ ∃ (k : Nat) (last : List Event), t.events = List.replicate k .halt ++ last
      ∧ last.length ≤ 1 ∧ .halt ∉ last

/-- 60_exceptions.md R204, R206: what an event of a call says stands in the observation fields after
it. -/
def Obligations.EventsAreObservable : Prop :=
  ∀ s t : State, step s = .next t →
    (.halt ∈ t.events → t.halted = true)
    ∧ (∀ c, .syscall c ∈ t.events → t.syscallPulse = true ∧ t.syscallCode = c)
    ∧ (∀ i, .instrument i ∈ t.events → t.instrumentPulse = true ∧ t.instrument = i)
    ∧ ∀ n, .play n ∈ t.events → t.playPulse = true ∧ t.note = n

/-- R113: what the pulses are after each kind of call. -/
def Obligations.PulsesByKindOfCall : Prop :=
  ∀ s t : State, step s = .next t →
    ((callKind s = .halted ∨ callKind s = .throttled) →
      t.syscallPulse = s.syscallPulse ∧ t.instrumentPulse = s.instrumentPulse
        ∧ t.playPulse = s.playPulse)
    ∧ ((callKind s = .waiting ∨ callKind s = .truncated) →
      t.syscallPulse = false ∧ t.instrumentPulse = false ∧ t.playPulse = false)
    ∧ (callKind s = .ended →
      (t.syscallPulse = true ↔ ∃ c, .syscall c ∈ t.events)
        ∧ (t.instrumentPulse = true ↔ ∃ i, .instrument i ∈ t.events)
        ∧ (t.playPulse = true ↔ ∃ n, .play n ∈ t.events))

/-! ### Laws over several calls -/

/-- R114, where the phase does not halt the machine: an active phase with rate `r` is followed by `r`
throttled calls and then an active phase. -/
def Obligations.RateLaw : Prop :=
  ∀ s t : State, s.halted = false → s.tickCounter = 0 → step s = .next t → t.halted = false →
    ∀ k : Nat, k ≤ s.tickRate.toNat → ∃ u, core.run k t = .next u ∧ u.halted = false
      ∧ u.tickCounter.toNat = s.tickRate.toNat - k
      ∧ u = { t with tickCounter := u.tickCounter, events := u.events }
      ∧ (k < s.tickRate.toNat → callKind u = .throttled)

/-- R174: a phase that executes `TICKS` or `TICKS16` was scheduled with the old rate; the new rate counts
from the next active phase. -/
def Obligations.NewRateIsLateByOnePhase : Prop :=
  ∀ (s : State) (rate : Word), s.gatesOpen →
    (s.fetch = .ticks16 rate ∨ ∃ imm, s.fetch = .ticks imm ∧ rate = zext16 imm) →
    ∃ t u, step s = .next t ∧ t.tickRate = rate ∧ t.tickCounter = s.tickRate
      ∧ core.run s.tickRate.toNat t = .next u ∧ u.gatesOpen ∧ u.cursor = t.cursor
      ∧ ∀ v, step u = .next v → v.tickCounter = rate

/-- R115, R175: after `WAIT(n)` or `WAIT16(n)` at rate `r`, `n * (r + 1) + r` calls pass without a fetch
and the next call runs the instruction after it. -/
def Obligations.PauseLaw : Prop :=
  ∀ (s : State) (n len : Nat), s.gatesOpen →
    ((∃ imm, s.fetch = .wait imm ∧ n = imm.toNat ∧ len = 2)
      ∨ ∃ imm16, s.fetch = .wait16 imm16 ∧ n = imm16.toNat ∧ len = 3) →
    ∃ t, step s = .next t ∧ movedBy s t len
      ∧ (∀ k, k < n * (s.tickRate.toNat + 1) + s.tickRate.toNat →
          ∃ u, core.run k t = .next u ∧ callFetches u = 0 ∧ u.cursor = t.cursor ∧ u.events = [])
      ∧ ∃ u, core.run (n * (s.tickRate.toNat + 1) + s.tickRate.toNat) t = .next u ∧ u.gatesOpen
          ∧ u.cursor = t.cursor

/-! ### Invariants (10_state.md R42) -/

/-- R42 (b) and the canonical form: every dispatch call keeps them, from every state. -/
def Obligations.StepKeepsInvariant : Prop :=
  ∀ s t : State, s.inv → step s = .next t → t.inv

/-- The invariant holds at reset: no pulse is true by decision D2 (notes/assumptions/4.md), and the
memory is the model's empty list in its canonical form (notes/assumptions/2.md). -/
def Obligations.InvariantAtReset : Prop := State.reset.inv

/-- R42 (a), (e): `base` never changes, and a call that starts halted changes no field of the Track. -/
def Obligations.BaseFixedAndHaltedSticky : Prop :=
  (∀ s t : State, step s = .next t → t.base = s.base ∧ (s.halted = true → t.toTrack = s.toTrack))
    ∧ ∀ (i : Instr) (s t : State), exec i s = .next t →
      t.base = s.base ∧ t.tickCounter = s.tickCounter ∧ (s.halted = true → t.halted = true)

/-- Every host request (60_exceptions.md R208, R210) keeps the invariant of a system of Tracks: at most
one pulse true (10_state.md R42 b), and, of the model's own representation, the canonical form of memory
(notes/assumptions/2.md) and the range of the buffer's length (notes/assumptions/19.md). -/
def Obligations.RequestKeepsSystemInvariant : Prop :=
  ∀ (y z : System) (r : Request) (p : Reply), y.inv → y.request r = .next (z, p) → z.inv

/-- 60_exceptions.md R208, R218, 30_encoding.md R88: a request changes nothing of the system but what it
names. That clearing the buffer leaves the bytes of program memory, and that a host write does not change
the buffer's length, are the model's choice (notes/assumptions/19.md). -/
def Obligations.RequestTouchesOnlyWhatItNames : Prop :=
  ∀ (y z : System) (p : Reply),
    (∀ k, (y.request (.dispatch k) = .next (z, p) ∨ y.request (.reset k) = .next (z, p)) →
      sameBuffer y z ∧ z.tracks.length = y.tracks.length
        ∧ ∀ j : Nat, j ≠ k → z.tracks[j]? = y.tracks[j]?)
    ∧ (∀ k, y.request (.observe k) = .next (z, p) → z = y)
    ∧ (∀ base, y.request (.construct base) = .next (z, p) → sameBuffer y z
        ∧ ∀ (j : Nat) t, y.tracks[j]? = some t → z.tracks[j]? = some t)
    ∧ (∀ a b, y.request (.writeByte a b) = .next (z, p) → z.tracks = y.tracks
        ∧ z.bufLen = y.bufLen ∧ z.beyond = y.beyond ∧ ∀ a', a' ≠ a → z.pmem.read a' = y.pmem.read a')
    ∧ (∀ c, y.request (.assemble c) = .next (z, p) → z.tracks = y.tracks
        ∧ ∀ a : Word, (a.toNat < y.bufLen ∨ y.bufLen + c.bytes.length ≤ a.toNat) →
          z.pmem.read a = y.pmem.read a)
    ∧ (y.request .clearBuffer = .next (z, p) → z.tracks = y.tracks ∧ z.pmem = y.pmem
        ∧ z.contents = [])
    ∧ (y.request .bufferLength = .next (z, p) → z = y ∧ p = .length y.contents.length)
    ∧ (y.request .inspectBuffer = .next (z, p) → z = y ∧ p = .contents y.contents)

/-! ### Reset, construction, several Tracks -/

/-- 70_reset_and_hazards.md R230 to R232: what `reset()` leaves (values by decision D2, no event by D15;
notes/assumptions/4.md, 17.md). -/
def Obligations.ResetRestoresDefaults : Prop :=
  ∀ s : State, s.hostReset.base = s.base ∧ s.hostReset.pmem = s.pmem ∧ s.hostReset.events = []
    ∧ s.hostReset.toTrack = Track.construct s.base
    ∧ Track.construct s.base =
      { base := s.base, cursor := 0, tickCounter := 0, sectionAnchor := 0, register := 0,
        accumulator := false, instrument := 0, note := 0, syscallCode := 0, tickRate := 0,
        waitCounter := 0, halted := false, syscallPulse := false, instrumentPulse := false,
        playPulse := false }

/-- 70_reset_and_hazards.md R233: the first call after construction or reset runs the instruction at
address `base`, from that very state, and ends or goes on with it (decision D2,
notes/assumptions/4.md). -/
def Obligations.FirstCallFetchesAtBase : Prop :=
  ∀ (s : State) (base : Word) (m : Memory),
    (s = (Track.construct base).over m ∨ ∃ r : State, r.base = base ∧ r.pmem = m ∧ s = r.hostReset) →
    s.gatesOpen ∧ s.phaseStart = s ∧ (∀ k : Nat, s.codeAddr k = base + BitVec.ofNat 16 k)
      ∧ s.fetch = decode (m.read base) (m.read (base + 1)) (m.read (base + 2))
      ∧ step s = phaseLoop exec (endsPhase Config.hardware) 255 s
      ∧ ∃ t, exec (decode (m.read base) (m.read (base + 1)) (m.read (base + 2))) s = .next t
        ∧ step s = if endsPhase Config.hardware s.fetch then .next t
            else phaseLoop exec (endsPhase Config.hardware) 254 t

/-- 60_exceptions.md R218: the order in which the host dispatches two Tracks affects neither of them,
nor what each call hands over. -/
def Obligations.TracksDoNotInteract : Prop :=
  ∀ (y yj yk : System) (j k : Nat) (pj pk : Reply), j ≠ k →
    y.dispatch j = .next (yj, pj) → y.dispatch k = .next (yk, pk) →
    ∃ z, yj.dispatch k = .next (z, pk) ∧ yk.dispatch j = .next (z, pj)

/-! ### The open parameters (00_scope.md R11) -/

/-- The machine of `step` is the machine the rules write with the register as an integer and the address
width as a parameter, at this hardware's parameters (43_register.md R150, decision D1; 20_memory.md R52,
decision D3). A machine that refuses fetches beside these (beyond an image, or past the last address of
a space no wider) does what this one does wherever it answers (notes/assumptions/6.md, 22.md). -/
def Obligations.HardwareIsTheVariantAtItsParameters : Prop :=
  (∀ s : State, ∃ t, step s = .next t
    ∧ variantStep Config.hardware (Variant.ofState s) = .next (Variant.ofState t))
  ∧ (∀ (s : State) (k : Nat), codeAddrBy Config.hardware s k = (s.codeAddr k).toNat)
  ∧ ∀ (bits : Nat) (refuse : Bool) (limit : Option Nat) (s : State) (v : Variant),
    (bits = 16 ∨ bits ≤ 16 ∧ refuse = true) →
    variantStep { Config.hardware with paddrBits := bits, wrapRefused := refuse, fetchLimit := limit }
      (Variant.ofState s) = .next v →
    ∃ t, step s = .next t ∧ v = Variant.ofState t

/-- 10_state.md R22, 43_register.md R160: both values of `REG_ARITH` do the same wherever the exact
result stays in 0 to 255 (decision D1, notes/assumptions/7.md); and the two instructions that hand out
the register are refused exactly where it is no 8-bit value (decision D13, notes/assumptions/15.md). -/
def Obligations.RegArithModesAgreeWithoutOverflow : Prop :=
  (∀ (c : Config) (i : Instr) (v : Variant), noOverflow i v.wide →
      execVariant { c with regArith := .unmasked } i v = execVariant { c with regArith := .wrap8 } i v)
    ∧ ∀ (c : Config) (v : Variant) (i : Instr), i = .instrumentSet ∨ i = .playSet →
      (execVariant c i v = .refused .registerOutOfRange ↔ v.wide < 0 ∨ 255 < v.wide)
end

