-- ==== Sys2Proof/Laws/Decode.lean ====
section
/-! SUPPORT. The byte order of 16-bit operands, and the formats the decoder and the encoder share. -/

namespace Sys2Proof

/-! ### Byte order -/

theorem wordOfBytes_toNat (lo hi : Byte) :
    (wordOfBytes lo hi).toNat = lo.toNat + 256 * hi.toNat := by
  have := lo.isLt
  simp only [wordOfBytes, BitVec.toNat_append, Nat.shiftLeft_eq]
  rw [Nat.mul_comm, ← Nat.two_pow_add_eq_or_of_lt (by omega)]
  omega

theorem lowByte_toNat (w : Word) : (lowByte w).toNat = w.toNat % 256 := by
  simp [lowByte]

theorem highByte_toNat (w : Word) : (highByte w).toNat = w.toNat / 256 := by
  have := w.isLt
  simp [highByte, Nat.shiftRight_eq_div_pow]
  omega

@[simp] theorem wordOfBytes_low_high (w : Word) : wordOfBytes (lowByte w) (highByte w) = w := by
  apply BitVec.eq_of_toNat_eq
  rw [wordOfBytes_toNat, lowByte_toNat, highByte_toNat]
  omega

@[simp] theorem lowByte_wordOfBytes (lo hi : Byte) : lowByte (wordOfBytes lo hi) = lo := by
  apply BitVec.eq_of_toNat_eq
  have := lo.isLt
  rw [lowByte_toNat, wordOfBytes_toNat]
  omega

@[simp] theorem highByte_wordOfBytes (lo hi : Byte) : highByte (wordOfBytes lo hi) = hi := by
  apply BitVec.eq_of_toNat_eq
  have := lo.isLt
  rw [highByte_toNat, wordOfBytes_toNat]
  omega

/-! ### Formats -/

/-- The decoder and the opcode's format agree on how long the instruction is. -/
theorem instrFormat_decode (b0 b1 b2 : Byte) : instrFormat (decode b0 b1 b2) = opcodeFormat b0 := by
  unfold decode
  split <;> first | rfl | simp only [instrFormat, opcodeFormat]

/-- The bytes the format does not have do not matter to the decoder. -/
theorem decode_f0 {b0 : Byte} (h : opcodeFormat b0 = .f0) (b1 b2 c1 c2 : Byte) :
    decode b0 b1 b2 = decode b0 c1 c2 := by
  unfold decode
  split <;> first | rfl | simp [opcodeFormat] at h

theorem decode_f8 {b0 : Byte} (h : opcodeFormat b0 = .f8) (b1 b2 c2 : Byte) :
    decode b0 b1 b2 = decode b0 b1 c2 := by
  unfold decode
  split <;> first | rfl | simp [opcodeFormat] at h

/-- From three bytes the byte decoder answers what the opcode map answers. -/
theorem decodeBytes_three (b0 b1 b2 : Byte) :
    ∃ r, decodeBytes [b0, b1, b2] = .ok (decode b0 b1 b2, r) := by
  cases h : opcodeFormat b0 with
  | f0 => exact ⟨[b1, b2], by simp only [decodeBytes, h, decode_f0 h b1 b2 0 0]⟩
  | f8 => exact ⟨[b2], by simp only [decodeBytes, h, decode_f8 h b1 b2 0]⟩
  | f16 => exact ⟨[], by simp only [decodeBytes, h]⟩

end Sys2Proof
end

