-- ==== Sys2Proof/Laws/State.lean ====
section
/-! SUPPORT. One lemma per field per update of the state, each true by `rfl`: what an update writes and
what it leaves alone. Later proofs use these and unfold no record update. -/

namespace Sys2Proof.Machine

/-! ### `State.jumpTo` -/

@[simp] theorem State.jumpTo_base (s : State) (t : Word) :
    (s.jumpTo t).base = s.base := rfl
@[simp] theorem State.jumpTo_cursor (s : State) (t : Word) :
    (s.jumpTo t).cursor = t := rfl
@[simp] theorem State.jumpTo_tickCounter (s : State) (t : Word) :
    (s.jumpTo t).tickCounter = s.tickCounter := rfl
@[simp] theorem State.jumpTo_sectionAnchor (s : State) (t : Word) :
    (s.jumpTo t).sectionAnchor = s.sectionAnchor := rfl
@[simp] theorem State.jumpTo_register (s : State) (t : Word) :
    (s.jumpTo t).register = s.register := rfl
@[simp] theorem State.jumpTo_accumulator (s : State) (t : Word) :
    (s.jumpTo t).accumulator = s.accumulator := rfl
@[simp] theorem State.jumpTo_instrument (s : State) (t : Word) :
    (s.jumpTo t).instrument = s.instrument := rfl
@[simp] theorem State.jumpTo_note (s : State) (t : Word) :
    (s.jumpTo t).note = s.note := rfl
@[simp] theorem State.jumpTo_syscallCode (s : State) (t : Word) :
    (s.jumpTo t).syscallCode = s.syscallCode := rfl
@[simp] theorem State.jumpTo_tickRate (s : State) (t : Word) :
    (s.jumpTo t).tickRate = s.tickRate := rfl
@[simp] theorem State.jumpTo_waitCounter (s : State) (t : Word) :
    (s.jumpTo t).waitCounter = s.waitCounter := rfl
@[simp] theorem State.jumpTo_halted (s : State) (t : Word) :
    (s.jumpTo t).halted = s.halted := rfl
@[simp] theorem State.jumpTo_syscallPulse (s : State) (t : Word) :
    (s.jumpTo t).syscallPulse = s.syscallPulse := rfl
@[simp] theorem State.jumpTo_instrumentPulse (s : State) (t : Word) :
    (s.jumpTo t).instrumentPulse = s.instrumentPulse := rfl
@[simp] theorem State.jumpTo_playPulse (s : State) (t : Word) :
    (s.jumpTo t).playPulse = s.playPulse := rfl
@[simp] theorem State.jumpTo_pmem (s : State) (t : Word) :
    (s.jumpTo t).pmem = s.pmem := rfl
@[simp] theorem State.jumpTo_events (s : State) (t : Word) :
    (s.jumpTo t).events = s.events := rfl

/-! ### `State.advance` -/

@[simp] theorem State.advance_base (s : State) (n : Word) :
    (s.advance n).base = s.base := rfl
@[simp] theorem State.advance_cursor (s : State) (n : Word) :
    (s.advance n).cursor = s.cursor + n := rfl
@[simp] theorem State.advance_tickCounter (s : State) (n : Word) :
    (s.advance n).tickCounter = s.tickCounter := rfl
@[simp] theorem State.advance_sectionAnchor (s : State) (n : Word) :
    (s.advance n).sectionAnchor = s.sectionAnchor := rfl
@[simp] theorem State.advance_register (s : State) (n : Word) :
    (s.advance n).register = s.register := rfl
@[simp] theorem State.advance_accumulator (s : State) (n : Word) :
    (s.advance n).accumulator = s.accumulator := rfl
@[simp] theorem State.advance_instrument (s : State) (n : Word) :
    (s.advance n).instrument = s.instrument := rfl
@[simp] theorem State.advance_note (s : State) (n : Word) :
    (s.advance n).note = s.note := rfl
@[simp] theorem State.advance_syscallCode (s : State) (n : Word) :
    (s.advance n).syscallCode = s.syscallCode := rfl
@[simp] theorem State.advance_tickRate (s : State) (n : Word) :
    (s.advance n).tickRate = s.tickRate := rfl
@[simp] theorem State.advance_waitCounter (s : State) (n : Word) :
    (s.advance n).waitCounter = s.waitCounter := rfl
@[simp] theorem State.advance_halted (s : State) (n : Word) :
    (s.advance n).halted = s.halted := rfl
@[simp] theorem State.advance_syscallPulse (s : State) (n : Word) :
    (s.advance n).syscallPulse = s.syscallPulse := rfl
@[simp] theorem State.advance_instrumentPulse (s : State) (n : Word) :
    (s.advance n).instrumentPulse = s.instrumentPulse := rfl
@[simp] theorem State.advance_playPulse (s : State) (n : Word) :
    (s.advance n).playPulse = s.playPulse := rfl
@[simp] theorem State.advance_pmem (s : State) (n : Word) :
    (s.advance n).pmem = s.pmem := rfl
@[simp] theorem State.advance_events (s : State) (n : Word) :
    (s.advance n).events = s.events := rfl

/-! ### `State.writeRegister` -/

@[simp] theorem State.writeRegister_base (s : State) (v : Byte) :
    (s.writeRegister v).base = s.base := rfl
@[simp] theorem State.writeRegister_cursor (s : State) (v : Byte) :
    (s.writeRegister v).cursor = s.cursor := rfl
@[simp] theorem State.writeRegister_tickCounter (s : State) (v : Byte) :
    (s.writeRegister v).tickCounter = s.tickCounter := rfl
@[simp] theorem State.writeRegister_sectionAnchor (s : State) (v : Byte) :
    (s.writeRegister v).sectionAnchor = s.sectionAnchor := rfl
@[simp] theorem State.writeRegister_register (s : State) (v : Byte) :
    (s.writeRegister v).register = v := rfl
@[simp] theorem State.writeRegister_accumulator (s : State) (v : Byte) :
    (s.writeRegister v).accumulator = s.accumulator := rfl
@[simp] theorem State.writeRegister_instrument (s : State) (v : Byte) :
    (s.writeRegister v).instrument = s.instrument := rfl
@[simp] theorem State.writeRegister_note (s : State) (v : Byte) :
    (s.writeRegister v).note = s.note := rfl
@[simp] theorem State.writeRegister_syscallCode (s : State) (v : Byte) :
    (s.writeRegister v).syscallCode = s.syscallCode := rfl
@[simp] theorem State.writeRegister_tickRate (s : State) (v : Byte) :
    (s.writeRegister v).tickRate = s.tickRate := rfl
@[simp] theorem State.writeRegister_waitCounter (s : State) (v : Byte) :
    (s.writeRegister v).waitCounter = s.waitCounter := rfl
@[simp] theorem State.writeRegister_halted (s : State) (v : Byte) :
    (s.writeRegister v).halted = s.halted := rfl
@[simp] theorem State.writeRegister_syscallPulse (s : State) (v : Byte) :
    (s.writeRegister v).syscallPulse = s.syscallPulse := rfl
@[simp] theorem State.writeRegister_instrumentPulse (s : State) (v : Byte) :
    (s.writeRegister v).instrumentPulse = s.instrumentPulse := rfl
@[simp] theorem State.writeRegister_playPulse (s : State) (v : Byte) :
    (s.writeRegister v).playPulse = s.playPulse := rfl
@[simp] theorem State.writeRegister_pmem (s : State) (v : Byte) :
    (s.writeRegister v).pmem = s.pmem := rfl
@[simp] theorem State.writeRegister_events (s : State) (v : Byte) :
    (s.writeRegister v).events = s.events := rfl

/-! ### `State.saveAnchor` -/

@[simp] theorem State.saveAnchor_base (s : State) :
    s.saveAnchor.base = s.base := rfl
@[simp] theorem State.saveAnchor_cursor (s : State) :
    s.saveAnchor.cursor = s.cursor := rfl
@[simp] theorem State.saveAnchor_tickCounter (s : State) :
    s.saveAnchor.tickCounter = s.tickCounter := rfl
@[simp] theorem State.saveAnchor_sectionAnchor (s : State) :
    s.saveAnchor.sectionAnchor = s.cursor := rfl
@[simp] theorem State.saveAnchor_register (s : State) :
    s.saveAnchor.register = s.register := rfl
@[simp] theorem State.saveAnchor_accumulator (s : State) :
    s.saveAnchor.accumulator = s.accumulator := rfl
@[simp] theorem State.saveAnchor_instrument (s : State) :
    s.saveAnchor.instrument = s.instrument := rfl
@[simp] theorem State.saveAnchor_note (s : State) :
    s.saveAnchor.note = s.note := rfl
@[simp] theorem State.saveAnchor_syscallCode (s : State) :
    s.saveAnchor.syscallCode = s.syscallCode := rfl
@[simp] theorem State.saveAnchor_tickRate (s : State) :
    s.saveAnchor.tickRate = s.tickRate := rfl
@[simp] theorem State.saveAnchor_waitCounter (s : State) :
    s.saveAnchor.waitCounter = s.waitCounter := rfl
@[simp] theorem State.saveAnchor_halted (s : State) :
    s.saveAnchor.halted = s.halted := rfl
@[simp] theorem State.saveAnchor_syscallPulse (s : State) :
    s.saveAnchor.syscallPulse = s.syscallPulse := rfl
@[simp] theorem State.saveAnchor_instrumentPulse (s : State) :
    s.saveAnchor.instrumentPulse = s.instrumentPulse := rfl
@[simp] theorem State.saveAnchor_playPulse (s : State) :
    s.saveAnchor.playPulse = s.playPulse := rfl
@[simp] theorem State.saveAnchor_pmem (s : State) :
    s.saveAnchor.pmem = s.pmem := rfl
@[simp] theorem State.saveAnchor_events (s : State) :
    s.saveAnchor.events = s.events := rfl

/-! ### `State.setTickRate` -/

@[simp] theorem State.setTickRate_base (s : State) (v : Word) :
    (s.setTickRate v).base = s.base := rfl
@[simp] theorem State.setTickRate_cursor (s : State) (v : Word) :
    (s.setTickRate v).cursor = s.cursor := rfl
@[simp] theorem State.setTickRate_tickCounter (s : State) (v : Word) :
    (s.setTickRate v).tickCounter = s.tickCounter := rfl
@[simp] theorem State.setTickRate_sectionAnchor (s : State) (v : Word) :
    (s.setTickRate v).sectionAnchor = s.sectionAnchor := rfl
@[simp] theorem State.setTickRate_register (s : State) (v : Word) :
    (s.setTickRate v).register = s.register := rfl
@[simp] theorem State.setTickRate_accumulator (s : State) (v : Word) :
    (s.setTickRate v).accumulator = s.accumulator := rfl
@[simp] theorem State.setTickRate_instrument (s : State) (v : Word) :
    (s.setTickRate v).instrument = s.instrument := rfl
@[simp] theorem State.setTickRate_note (s : State) (v : Word) :
    (s.setTickRate v).note = s.note := rfl
@[simp] theorem State.setTickRate_syscallCode (s : State) (v : Word) :
    (s.setTickRate v).syscallCode = s.syscallCode := rfl
@[simp] theorem State.setTickRate_tickRate (s : State) (v : Word) :
    (s.setTickRate v).tickRate = v := rfl
@[simp] theorem State.setTickRate_waitCounter (s : State) (v : Word) :
    (s.setTickRate v).waitCounter = s.waitCounter := rfl
@[simp] theorem State.setTickRate_halted (s : State) (v : Word) :
    (s.setTickRate v).halted = s.halted := rfl
@[simp] theorem State.setTickRate_syscallPulse (s : State) (v : Word) :
    (s.setTickRate v).syscallPulse = s.syscallPulse := rfl
@[simp] theorem State.setTickRate_instrumentPulse (s : State) (v : Word) :
    (s.setTickRate v).instrumentPulse = s.instrumentPulse := rfl
@[simp] theorem State.setTickRate_playPulse (s : State) (v : Word) :
    (s.setTickRate v).playPulse = s.playPulse := rfl
@[simp] theorem State.setTickRate_pmem (s : State) (v : Word) :
    (s.setTickRate v).pmem = s.pmem := rfl
@[simp] theorem State.setTickRate_events (s : State) (v : Word) :
    (s.setTickRate v).events = s.events := rfl

/-! ### `State.setWaitCounter` -/

@[simp] theorem State.setWaitCounter_base (s : State) (v : Word) :
    (s.setWaitCounter v).base = s.base := rfl
@[simp] theorem State.setWaitCounter_cursor (s : State) (v : Word) :
    (s.setWaitCounter v).cursor = s.cursor := rfl
@[simp] theorem State.setWaitCounter_tickCounter (s : State) (v : Word) :
    (s.setWaitCounter v).tickCounter = s.tickCounter := rfl
@[simp] theorem State.setWaitCounter_sectionAnchor (s : State) (v : Word) :
    (s.setWaitCounter v).sectionAnchor = s.sectionAnchor := rfl
@[simp] theorem State.setWaitCounter_register (s : State) (v : Word) :
    (s.setWaitCounter v).register = s.register := rfl
@[simp] theorem State.setWaitCounter_accumulator (s : State) (v : Word) :
    (s.setWaitCounter v).accumulator = s.accumulator := rfl
@[simp] theorem State.setWaitCounter_instrument (s : State) (v : Word) :
    (s.setWaitCounter v).instrument = s.instrument := rfl
@[simp] theorem State.setWaitCounter_note (s : State) (v : Word) :
    (s.setWaitCounter v).note = s.note := rfl
@[simp] theorem State.setWaitCounter_syscallCode (s : State) (v : Word) :
    (s.setWaitCounter v).syscallCode = s.syscallCode := rfl
@[simp] theorem State.setWaitCounter_tickRate (s : State) (v : Word) :
    (s.setWaitCounter v).tickRate = s.tickRate := rfl
@[simp] theorem State.setWaitCounter_waitCounter (s : State) (v : Word) :
    (s.setWaitCounter v).waitCounter = v := rfl
@[simp] theorem State.setWaitCounter_halted (s : State) (v : Word) :
    (s.setWaitCounter v).halted = s.halted := rfl
@[simp] theorem State.setWaitCounter_syscallPulse (s : State) (v : Word) :
    (s.setWaitCounter v).syscallPulse = s.syscallPulse := rfl
@[simp] theorem State.setWaitCounter_instrumentPulse (s : State) (v : Word) :
    (s.setWaitCounter v).instrumentPulse = s.instrumentPulse := rfl
@[simp] theorem State.setWaitCounter_playPulse (s : State) (v : Word) :
    (s.setWaitCounter v).playPulse = s.playPulse := rfl
@[simp] theorem State.setWaitCounter_pmem (s : State) (v : Word) :
    (s.setWaitCounter v).pmem = s.pmem := rfl
@[simp] theorem State.setWaitCounter_events (s : State) (v : Word) :
    (s.setWaitCounter v).events = s.events := rfl

/-! ### `State.setHalted` -/

@[simp] theorem State.setHalted_base (s : State) :
    s.setHalted.base = s.base := rfl
@[simp] theorem State.setHalted_cursor (s : State) :
    s.setHalted.cursor = s.cursor := rfl
@[simp] theorem State.setHalted_tickCounter (s : State) :
    s.setHalted.tickCounter = s.tickCounter := rfl
@[simp] theorem State.setHalted_sectionAnchor (s : State) :
    s.setHalted.sectionAnchor = s.sectionAnchor := rfl
@[simp] theorem State.setHalted_register (s : State) :
    s.setHalted.register = s.register := rfl
@[simp] theorem State.setHalted_accumulator (s : State) :
    s.setHalted.accumulator = s.accumulator := rfl
@[simp] theorem State.setHalted_instrument (s : State) :
    s.setHalted.instrument = s.instrument := rfl
@[simp] theorem State.setHalted_note (s : State) :
    s.setHalted.note = s.note := rfl
@[simp] theorem State.setHalted_syscallCode (s : State) :
    s.setHalted.syscallCode = s.syscallCode := rfl
@[simp] theorem State.setHalted_tickRate (s : State) :
    s.setHalted.tickRate = s.tickRate := rfl
@[simp] theorem State.setHalted_waitCounter (s : State) :
    s.setHalted.waitCounter = s.waitCounter := rfl
@[simp] theorem State.setHalted_halted (s : State) :
    s.setHalted.halted = true := rfl
@[simp] theorem State.setHalted_syscallPulse (s : State) :
    s.setHalted.syscallPulse = s.syscallPulse := rfl
@[simp] theorem State.setHalted_instrumentPulse (s : State) :
    s.setHalted.instrumentPulse = s.instrumentPulse := rfl
@[simp] theorem State.setHalted_playPulse (s : State) :
    s.setHalted.playPulse = s.playPulse := rfl
@[simp] theorem State.setHalted_pmem (s : State) :
    s.setHalted.pmem = s.pmem := rfl
@[simp] theorem State.setHalted_events (s : State) :
    s.setHalted.events = s.events := rfl

/-! ### `State.emit` -/

@[simp] theorem State.emit_base (s : State) (e : Event) :
    (s.emit e).base = s.base := rfl
@[simp] theorem State.emit_cursor (s : State) (e : Event) :
    (s.emit e).cursor = s.cursor := rfl
@[simp] theorem State.emit_tickCounter (s : State) (e : Event) :
    (s.emit e).tickCounter = s.tickCounter := rfl
@[simp] theorem State.emit_sectionAnchor (s : State) (e : Event) :
    (s.emit e).sectionAnchor = s.sectionAnchor := rfl
@[simp] theorem State.emit_register (s : State) (e : Event) :
    (s.emit e).register = s.register := rfl
@[simp] theorem State.emit_accumulator (s : State) (e : Event) :
    (s.emit e).accumulator = s.accumulator := rfl
@[simp] theorem State.emit_instrument (s : State) (e : Event) :
    (s.emit e).instrument = s.instrument := rfl
@[simp] theorem State.emit_note (s : State) (e : Event) :
    (s.emit e).note = s.note := rfl
@[simp] theorem State.emit_syscallCode (s : State) (e : Event) :
    (s.emit e).syscallCode = s.syscallCode := rfl
@[simp] theorem State.emit_tickRate (s : State) (e : Event) :
    (s.emit e).tickRate = s.tickRate := rfl
@[simp] theorem State.emit_waitCounter (s : State) (e : Event) :
    (s.emit e).waitCounter = s.waitCounter := rfl
@[simp] theorem State.emit_halted (s : State) (e : Event) :
    (s.emit e).halted = s.halted := rfl
@[simp] theorem State.emit_syscallPulse (s : State) (e : Event) :
    (s.emit e).syscallPulse = s.syscallPulse := rfl
@[simp] theorem State.emit_instrumentPulse (s : State) (e : Event) :
    (s.emit e).instrumentPulse = s.instrumentPulse := rfl
@[simp] theorem State.emit_playPulse (s : State) (e : Event) :
    (s.emit e).playPulse = s.playPulse := rfl
@[simp] theorem State.emit_pmem (s : State) (e : Event) :
    (s.emit e).pmem = s.pmem := rfl
@[simp] theorem State.emit_events (s : State) (e : Event) :
    (s.emit e).events = s.events ++ [e] := rfl

/-! ### `State.setAccumulator` -/

@[simp] theorem State.setAccumulator_base (s : State) (v : Bool) :
    (s.setAccumulator v).base = s.base := rfl
@[simp] theorem State.setAccumulator_cursor (s : State) (v : Bool) :
    (s.setAccumulator v).cursor = s.cursor := rfl
@[simp] theorem State.setAccumulator_tickCounter (s : State) (v : Bool) :
    (s.setAccumulator v).tickCounter = s.tickCounter := rfl
@[simp] theorem State.setAccumulator_sectionAnchor (s : State) (v : Bool) :
    (s.setAccumulator v).sectionAnchor = s.sectionAnchor := rfl
@[simp] theorem State.setAccumulator_register (s : State) (v : Bool) :
    (s.setAccumulator v).register = s.register := rfl
@[simp] theorem State.setAccumulator_accumulator (s : State) (v : Bool) :
    (s.setAccumulator v).accumulator = v := rfl
@[simp] theorem State.setAccumulator_instrument (s : State) (v : Bool) :
    (s.setAccumulator v).instrument = s.instrument := rfl
@[simp] theorem State.setAccumulator_note (s : State) (v : Bool) :
    (s.setAccumulator v).note = s.note := rfl
@[simp] theorem State.setAccumulator_syscallCode (s : State) (v : Bool) :
    (s.setAccumulator v).syscallCode = s.syscallCode := rfl
@[simp] theorem State.setAccumulator_tickRate (s : State) (v : Bool) :
    (s.setAccumulator v).tickRate = s.tickRate := rfl
@[simp] theorem State.setAccumulator_waitCounter (s : State) (v : Bool) :
    (s.setAccumulator v).waitCounter = s.waitCounter := rfl
@[simp] theorem State.setAccumulator_halted (s : State) (v : Bool) :
    (s.setAccumulator v).halted = s.halted := rfl
@[simp] theorem State.setAccumulator_syscallPulse (s : State) (v : Bool) :
    (s.setAccumulator v).syscallPulse = s.syscallPulse := rfl
@[simp] theorem State.setAccumulator_instrumentPulse (s : State) (v : Bool) :
    (s.setAccumulator v).instrumentPulse = s.instrumentPulse := rfl
@[simp] theorem State.setAccumulator_playPulse (s : State) (v : Bool) :
    (s.setAccumulator v).playPulse = s.playPulse := rfl
@[simp] theorem State.setAccumulator_pmem (s : State) (v : Bool) :
    (s.setAccumulator v).pmem = s.pmem := rfl
@[simp] theorem State.setAccumulator_events (s : State) (v : Bool) :
    (s.setAccumulator v).events = s.events := rfl

/-! ### `State.clearPulses` -/

@[simp] theorem State.clearPulses_base (s : State) :
    s.clearPulses.base = s.base := rfl
@[simp] theorem State.clearPulses_cursor (s : State) :
    s.clearPulses.cursor = s.cursor := rfl
@[simp] theorem State.clearPulses_tickCounter (s : State) :
    s.clearPulses.tickCounter = s.tickCounter := rfl
@[simp] theorem State.clearPulses_sectionAnchor (s : State) :
    s.clearPulses.sectionAnchor = s.sectionAnchor := rfl
@[simp] theorem State.clearPulses_register (s : State) :
    s.clearPulses.register = s.register := rfl
@[simp] theorem State.clearPulses_accumulator (s : State) :
    s.clearPulses.accumulator = s.accumulator := rfl
@[simp] theorem State.clearPulses_instrument (s : State) :
    s.clearPulses.instrument = s.instrument := rfl
@[simp] theorem State.clearPulses_note (s : State) :
    s.clearPulses.note = s.note := rfl
@[simp] theorem State.clearPulses_syscallCode (s : State) :
    s.clearPulses.syscallCode = s.syscallCode := rfl
@[simp] theorem State.clearPulses_tickRate (s : State) :
    s.clearPulses.tickRate = s.tickRate := rfl
@[simp] theorem State.clearPulses_waitCounter (s : State) :
    s.clearPulses.waitCounter = s.waitCounter := rfl
@[simp] theorem State.clearPulses_halted (s : State) :
    s.clearPulses.halted = s.halted := rfl
@[simp] theorem State.clearPulses_syscallPulse (s : State) :
    s.clearPulses.syscallPulse = false := rfl
@[simp] theorem State.clearPulses_instrumentPulse (s : State) :
    s.clearPulses.instrumentPulse = false := rfl
@[simp] theorem State.clearPulses_playPulse (s : State) :
    s.clearPulses.playPulse = false := rfl
@[simp] theorem State.clearPulses_pmem (s : State) :
    s.clearPulses.pmem = s.pmem := rfl
@[simp] theorem State.clearPulses_events (s : State) :
    s.clearPulses.events = s.events := rfl

/-! ### `State.beginCall` -/

@[simp] theorem State.beginCall_base (s : State) :
    s.beginCall.base = s.base := rfl
@[simp] theorem State.beginCall_cursor (s : State) :
    s.beginCall.cursor = s.cursor := rfl
@[simp] theorem State.beginCall_tickCounter (s : State) :
    s.beginCall.tickCounter = s.tickCounter := rfl
@[simp] theorem State.beginCall_sectionAnchor (s : State) :
    s.beginCall.sectionAnchor = s.sectionAnchor := rfl
@[simp] theorem State.beginCall_register (s : State) :
    s.beginCall.register = s.register := rfl
@[simp] theorem State.beginCall_accumulator (s : State) :
    s.beginCall.accumulator = s.accumulator := rfl
@[simp] theorem State.beginCall_instrument (s : State) :
    s.beginCall.instrument = s.instrument := rfl
@[simp] theorem State.beginCall_note (s : State) :
    s.beginCall.note = s.note := rfl
@[simp] theorem State.beginCall_syscallCode (s : State) :
    s.beginCall.syscallCode = s.syscallCode := rfl
@[simp] theorem State.beginCall_tickRate (s : State) :
    s.beginCall.tickRate = s.tickRate := rfl
@[simp] theorem State.beginCall_waitCounter (s : State) :
    s.beginCall.waitCounter = s.waitCounter := rfl
@[simp] theorem State.beginCall_halted (s : State) :
    s.beginCall.halted = s.halted := rfl
@[simp] theorem State.beginCall_syscallPulse (s : State) :
    s.beginCall.syscallPulse = s.syscallPulse := rfl
@[simp] theorem State.beginCall_instrumentPulse (s : State) :
    s.beginCall.instrumentPulse = s.instrumentPulse := rfl
@[simp] theorem State.beginCall_playPulse (s : State) :
    s.beginCall.playPulse = s.playPulse := rfl
@[simp] theorem State.beginCall_pmem (s : State) :
    s.beginCall.pmem = s.pmem := rfl
@[simp] theorem State.beginCall_events (s : State) :
    s.beginCall.events = [] := rfl

/-! ### `State.throttle` -/

@[simp] theorem State.throttle_base (s : State) :
    s.throttle.base = s.base := rfl
@[simp] theorem State.throttle_cursor (s : State) :
    s.throttle.cursor = s.cursor := rfl
@[simp] theorem State.throttle_tickCounter (s : State) :
    s.throttle.tickCounter = s.tickCounter - 1 := rfl
@[simp] theorem State.throttle_sectionAnchor (s : State) :
    s.throttle.sectionAnchor = s.sectionAnchor := rfl
@[simp] theorem State.throttle_register (s : State) :
    s.throttle.register = s.register := rfl
@[simp] theorem State.throttle_accumulator (s : State) :
    s.throttle.accumulator = s.accumulator := rfl
@[simp] theorem State.throttle_instrument (s : State) :
    s.throttle.instrument = s.instrument := rfl
@[simp] theorem State.throttle_note (s : State) :
    s.throttle.note = s.note := rfl
@[simp] theorem State.throttle_syscallCode (s : State) :
    s.throttle.syscallCode = s.syscallCode := rfl
@[simp] theorem State.throttle_tickRate (s : State) :
    s.throttle.tickRate = s.tickRate := rfl
@[simp] theorem State.throttle_waitCounter (s : State) :
    s.throttle.waitCounter = s.waitCounter := rfl
@[simp] theorem State.throttle_halted (s : State) :
    s.throttle.halted = s.halted := rfl
@[simp] theorem State.throttle_syscallPulse (s : State) :
    s.throttle.syscallPulse = s.syscallPulse := rfl
@[simp] theorem State.throttle_instrumentPulse (s : State) :
    s.throttle.instrumentPulse = s.instrumentPulse := rfl
@[simp] theorem State.throttle_playPulse (s : State) :
    s.throttle.playPulse = s.playPulse := rfl
@[simp] theorem State.throttle_pmem (s : State) :
    s.throttle.pmem = s.pmem := rfl
@[simp] theorem State.throttle_events (s : State) :
    s.throttle.events = s.events := rfl

/-! ### `State.reload` -/

@[simp] theorem State.reload_base (s : State) :
    s.reload.base = s.base := rfl
@[simp] theorem State.reload_cursor (s : State) :
    s.reload.cursor = s.cursor := rfl
@[simp] theorem State.reload_tickCounter (s : State) :
    s.reload.tickCounter = s.tickRate := rfl
@[simp] theorem State.reload_sectionAnchor (s : State) :
    s.reload.sectionAnchor = s.sectionAnchor := rfl
@[simp] theorem State.reload_register (s : State) :
    s.reload.register = s.register := rfl
@[simp] theorem State.reload_accumulator (s : State) :
    s.reload.accumulator = s.accumulator := rfl
@[simp] theorem State.reload_instrument (s : State) :
    s.reload.instrument = s.instrument := rfl
@[simp] theorem State.reload_note (s : State) :
    s.reload.note = s.note := rfl
@[simp] theorem State.reload_syscallCode (s : State) :
    s.reload.syscallCode = s.syscallCode := rfl
@[simp] theorem State.reload_tickRate (s : State) :
    s.reload.tickRate = s.tickRate := rfl
@[simp] theorem State.reload_waitCounter (s : State) :
    s.reload.waitCounter = s.waitCounter := rfl
@[simp] theorem State.reload_halted (s : State) :
    s.reload.halted = s.halted := rfl
@[simp] theorem State.reload_syscallPulse (s : State) :
    s.reload.syscallPulse = s.syscallPulse := rfl
@[simp] theorem State.reload_instrumentPulse (s : State) :
    s.reload.instrumentPulse = s.instrumentPulse := rfl
@[simp] theorem State.reload_playPulse (s : State) :
    s.reload.playPulse = s.playPulse := rfl
@[simp] theorem State.reload_pmem (s : State) :
    s.reload.pmem = s.pmem := rfl
@[simp] theorem State.reload_events (s : State) :
    s.reload.events = s.events := rfl

/-! ### `State.consumeWait` -/

@[simp] theorem State.consumeWait_base (s : State) :
    s.consumeWait.base = s.base := rfl
@[simp] theorem State.consumeWait_cursor (s : State) :
    s.consumeWait.cursor = s.cursor := rfl
@[simp] theorem State.consumeWait_tickCounter (s : State) :
    s.consumeWait.tickCounter = s.tickCounter := rfl
@[simp] theorem State.consumeWait_sectionAnchor (s : State) :
    s.consumeWait.sectionAnchor = s.sectionAnchor := rfl
@[simp] theorem State.consumeWait_register (s : State) :
    s.consumeWait.register = s.register := rfl
@[simp] theorem State.consumeWait_accumulator (s : State) :
    s.consumeWait.accumulator = s.accumulator := rfl
@[simp] theorem State.consumeWait_instrument (s : State) :
    s.consumeWait.instrument = s.instrument := rfl
@[simp] theorem State.consumeWait_note (s : State) :
    s.consumeWait.note = s.note := rfl
@[simp] theorem State.consumeWait_syscallCode (s : State) :
    s.consumeWait.syscallCode = s.syscallCode := rfl
@[simp] theorem State.consumeWait_tickRate (s : State) :
    s.consumeWait.tickRate = s.tickRate := rfl
@[simp] theorem State.consumeWait_waitCounter (s : State) :
    s.consumeWait.waitCounter = s.waitCounter - 1 := rfl
@[simp] theorem State.consumeWait_halted (s : State) :
    s.consumeWait.halted = s.halted := rfl
@[simp] theorem State.consumeWait_syscallPulse (s : State) :
    s.consumeWait.syscallPulse = s.syscallPulse := rfl
@[simp] theorem State.consumeWait_instrumentPulse (s : State) :
    s.consumeWait.instrumentPulse = s.instrumentPulse := rfl
@[simp] theorem State.consumeWait_playPulse (s : State) :
    s.consumeWait.playPulse = s.playPulse := rfl
@[simp] theorem State.consumeWait_pmem (s : State) :
    s.consumeWait.pmem = s.pmem := rfl
@[simp] theorem State.consumeWait_events (s : State) :
    s.consumeWait.events = s.events := rfl

/-! ### `State.openGates` -/

@[simp] theorem State.openGates_base (s : State) :
    s.openGates.base = s.base := rfl
@[simp] theorem State.openGates_cursor (s : State) :
    s.openGates.cursor = s.cursor := rfl
@[simp] theorem State.openGates_tickCounter (s : State) :
    s.openGates.tickCounter = 0 := rfl
@[simp] theorem State.openGates_sectionAnchor (s : State) :
    s.openGates.sectionAnchor = s.sectionAnchor := rfl
@[simp] theorem State.openGates_register (s : State) :
    s.openGates.register = s.register := rfl
@[simp] theorem State.openGates_accumulator (s : State) :
    s.openGates.accumulator = s.accumulator := rfl
@[simp] theorem State.openGates_instrument (s : State) :
    s.openGates.instrument = s.instrument := rfl
@[simp] theorem State.openGates_note (s : State) :
    s.openGates.note = s.note := rfl
@[simp] theorem State.openGates_syscallCode (s : State) :
    s.openGates.syscallCode = s.syscallCode := rfl
@[simp] theorem State.openGates_tickRate (s : State) :
    s.openGates.tickRate = s.tickRate := rfl
@[simp] theorem State.openGates_waitCounter (s : State) :
    s.openGates.waitCounter = 0 := rfl
@[simp] theorem State.openGates_halted (s : State) :
    s.openGates.halted = false := rfl
@[simp] theorem State.openGates_syscallPulse (s : State) :
    s.openGates.syscallPulse = s.syscallPulse := rfl
@[simp] theorem State.openGates_instrumentPulse (s : State) :
    s.openGates.instrumentPulse = s.instrumentPulse := rfl
@[simp] theorem State.openGates_playPulse (s : State) :
    s.openGates.playPulse = s.playPulse := rfl
@[simp] theorem State.openGates_pmem (s : State) :
    s.openGates.pmem = s.pmem := rfl
@[simp] theorem State.openGates_events (s : State) :
    s.openGates.events = s.events := rfl

/-! ### The conditional transfer -/

@[simp] theorem State.branch_true (s : State) (t skip : Word) :
    s.branch true t skip = s.jumpTo t := rfl
@[simp] theorem State.branch_false (s : State) (t skip : Word) :
    s.branch false t skip = s.advance skip := rfl

/-- A conditional transfer writes the cursor and nothing else. -/
theorem State.branch_eq (s : State) (taken : Bool) (t skip : Word) :
    s.branch taken t skip = s.jumpTo (if taken then t else s.cursor + skip) := by
  cases taken <;> rfl

end Sys2Proof.Machine
end

