-- ==== Sys2Proof/Laws/Exec.lean ====
section
/-! SUPPORT. What an instruction can do, said once: what every instruction leaves alone, what a
continuing instruction does to the outputs, and what a phase-ending one does. -/

namespace Sys2Proof.Machine

/-! ### The shared effects, field by field -/

theorem State.haltBy_eq (s : State) (adv : Word) : s.haltBy adv =
    { s with halted := true, cursor := s.cursor + adv, events := s.events ++ [.halt] } := rfl

theorem State.raiseSyscall_eq (s : State) (code len : Word) : s.raiseSyscall code len =
    { s with syscallCode := code, syscallPulse := true, cursor := s.cursor + len,
             events := s.events ++ [.syscall code] } := rfl

theorem State.raiseInstrument_eq (s : State) (index : Byte) (len : Word) :
    s.raiseInstrument index len =
      { s with instrument := index, instrumentPulse := true, cursor := s.cursor + len,
               events := s.events ++ [.instrument index] } := rfl

theorem State.raisePlay_eq (s : State) (note : Byte) (len : Word) : s.raisePlay note len =
    { s with note := note, playPulse := true, cursor := s.cursor + len,
             events := s.events ++ [.play note] } := rfl

/-! ### All instructions -/

/-- Every meaning answers a next state. -/
theorem exec_answers (i : Instr) (s : State) : ∃ t, exec i s = .next t := by
  cases i <;> exact ⟨_, rfl⟩

/-- No instruction touches `base`, `tickCounter` or program memory. -/
theorem exec_leaves {i : Instr} {s t : State} (h : exec i s = .next t) :
    t.base = s.base ∧ t.tickCounter = s.tickCounter ∧ t.pmem = s.pmem := by
  cases i <;> cases h <;> simp [State.branch_eq, State.haltBy_eq, State.raiseSyscall_eq,
    State.raiseInstrument_eq, State.raisePlay_eq, State.loadRegister, State.compare]

/-! ### Continuing instructions -/

/-- A continuing instruction other than `HALT` leaves every output as it is; `HALT` sets `halted` and
emits one `Halt` (40_dispatch.md R108, R111). The timing fields are left alone. -/
theorem exec_continuing {i : Instr} {s t : State} (hi : endsPhase Config.hardware i = false)
    (h : exec i s = .next t) :
    (t.syscallPulse = s.syscallPulse ∧ t.instrumentPulse = s.instrumentPulse
        ∧ t.playPulse = s.playPulse)
      ∧ (t.tickRate = s.tickRate ∧ t.waitCounter = s.waitCounter)
      ∧ (t.halted = s.halted ∧ t.events = s.events
          ∨ i = .halt ∧ t.halted = true ∧ t.events = s.events ++ [.halt]) := by
  cases i <;> first | exact absurd (show true = false from hi) (by decide) | skip
  all_goals
    cases h
    simp [State.branch_eq, State.haltBy_eq, State.loadRegister, State.compare]

/-! ### Phase-ending instructions -/

/-- The outputs of a phase-ending instruction: none, or one event with its pulse and its latch
(45_events.md R185). -/
inductive Signals (s t : State) : Prop where
  | silent (events : t.events = s.events) (sys : t.syscallPulse = s.syscallPulse)
      (ins : t.instrumentPulse = s.instrumentPulse) (ply : t.playPulse = s.playPulse)
  | syscall (events : t.events = s.events ++ [.syscall t.syscallCode]) (sys : t.syscallPulse = true)
      (ins : t.instrumentPulse = s.instrumentPulse) (ply : t.playPulse = s.playPulse)
  | instrument (events : t.events = s.events ++ [.instrument t.instrument])
      (sys : t.syscallPulse = s.syscallPulse) (ins : t.instrumentPulse = true)
      (ply : t.playPulse = s.playPulse)
  | play (events : t.events = s.events ++ [.play t.note]) (sys : t.syscallPulse = s.syscallPulse)
      (ins : t.instrumentPulse = s.instrumentPulse) (ply : t.playPulse = true)

/-- A phase-ending instruction leaves `halted` alone and signals at most once. -/
theorem exec_ending {i : Instr} {s t : State} (hi : endsPhase Config.hardware i = true)
    (h : exec i s = .next t) : t.halted = s.halted ∧ Signals s t := by
  cases i <;> first | exact absurd (show false = true from hi) (by decide) | skip
  all_goals
    cases h
    first
      | exact ⟨rfl, .silent rfl rfl rfl rfl⟩
      | exact ⟨rfl, .syscall rfl rfl rfl rfl⟩
      | exact ⟨rfl, .instrument rfl rfl rfl rfl⟩
      | exact ⟨rfl, .play rfl rfl rfl rfl⟩

/-! ### Fetch -/

/-- What is fetched depends on `base`, `cursor` and program memory only. -/
theorem State.fetch_congr {s t : State} (hb : t.base = s.base) (hc : t.cursor = s.cursor)
    (hm : t.pmem = s.pmem) : t.fetch = s.fetch := by
  simp only [State.fetch, State.codeByte, State.codeAddr, hb, hc, hm]

end Sys2Proof.Machine
end

