-- ==== Sys2Proof/Laws/Memory.lean ====
section
/-! SUPPORT. The lookups after the memory operations, key by key, and the canonical form they keep. -/

namespace Sys2Proof.Machine

/-! ### Lookups -/

theorem Memory.lookup_erase (m : Memory) (k j : Nat) :
    Memory.lookup j (Memory.erase k m) = if j = k then Memory.unlisted else Memory.lookup j m := by
  induction m with
  | nil => simp [Memory.erase, Memory.lookup]
  | cons c m ih =>
    obtain ⟨i, b⟩ := c
    simp only [Memory.erase, Memory.lookup]
    split <;> simp only [Memory.lookup, ih] <;> split <;> (try split) <;> simp_all

theorem Memory.lookup_insert (m : Memory) (k j : Nat) (b : Byte) :
    Memory.lookup j (Memory.insert k b m) = if j = k then b else Memory.lookup j m := by
  induction m with
  | nil => simp only [Memory.insert, Memory.lookup, @eq_comm Nat k j]
  | cons c m ih =>
    obtain ⟨i, b'⟩ := c
    simp only [Memory.insert]
    split
    · simp only [Memory.lookup, @eq_comm Nat k j]
    · split
      · next h => subst h; simp only [Memory.lookup, @eq_comm Nat i j]; split <;> simp_all
      · next h =>
        by_cases hj : i = j
        · subst hj; simp [Memory.lookup, h]
        · simp [Memory.lookup, hj, ih]

/-- Everything a write does to what is read: the byte written there, every other byte as before. -/
theorem Memory.lookup_write (m : Memory) (a : Word) (b : Byte) (j : Nat) :
    Memory.lookup j (m.write a b) = if j = a.toNat then b else Memory.lookup j m := by
  unfold Memory.write
  split
  · next h => rw [Memory.lookup_erase, h]
  · rw [Memory.lookup_insert]

/-! ### The canonical form -/

theorem Memory.wfFrom_mono {lo lo' : Nat} (h : lo ≤ lo') {m : Memory}
    (hm : Memory.wfFrom lo' m = true) : Memory.wfFrom lo m = true := by
  cases m with
  | nil => rfl
  | cons c m =>
    simp only [Memory.wfFrom, Bool.and_eq_true, decide_eq_true_eq] at *
    exact ⟨⟨⟨by omega, hm.1.1.2⟩, hm.1.2⟩, hm.2⟩

theorem Memory.wfFrom_erase (m : Memory) (k lo : Nat) (hm : Memory.wfFrom lo m = true) :
    Memory.wfFrom lo (Memory.erase k m) = true := by
  induction m generalizing lo with
  | nil => rfl
  | cons c m ih =>
    obtain ⟨i, b⟩ := c
    simp only [Memory.wfFrom, Bool.and_eq_true, decide_eq_true_eq] at hm
    obtain ⟨⟨⟨h1, h2⟩, h3⟩, h4⟩ := hm
    simp only [Memory.erase]
    split
    · exact ih lo (Memory.wfFrom_mono (by omega) h4)
    · simp [Memory.wfFrom, h1, h2, h3, ih _ h4]

theorem Memory.wfFrom_insert (m : Memory) (k lo : Nat) (b : Byte) (hb : b ≠ Memory.unlisted)
    (hk : k < Memory.size) (hlo : lo ≤ k) (hm : Memory.wfFrom lo m = true) :
    Memory.wfFrom lo (Memory.insert k b m) = true := by
  induction m generalizing lo with
  | nil => simp [Memory.insert, Memory.wfFrom, hb, hk, hlo]
  | cons c m ih =>
    obtain ⟨i, b'⟩ := c
    simp only [Memory.wfFrom, Bool.and_eq_true, decide_eq_true_eq] at hm
    obtain ⟨⟨⟨h1, h2⟩, h3⟩, h4⟩ := hm
    simp only [Memory.insert]
    split
    · simp [Memory.wfFrom, hb, hk, hlo, h2, h3, h4]; omega
    · split
      · subst_vars; simp [Memory.wfFrom, hb, hk, hlo, h4]
      · simp only [Memory.wfFrom, h1, h2, h3, ih (i + 1) (by omega) h4, decide_true, Bool.and_true,
          ne_eq, not_false_eq_true]

theorem Memory.toNat_lt_size (a : Word) : a.toNat < Memory.size := a.isLt

/-- A cell below the canonical form's lower address is not listed. -/
theorem Memory.lookup_below (m : Memory) (lo k : Nat) (hm : Memory.wfFrom lo m = true) (hk : k < lo) :
    Memory.lookup k m = Memory.unlisted := by
  induction m generalizing lo with
  | nil => rfl
  | cons c m ih =>
    obtain ⟨i, b⟩ := c
    simp only [Memory.wfFrom, Bool.and_eq_true, decide_eq_true_eq] at hm
    rw [Memory.lookup, if_neg (by omega), ih (i + 1) hm.2 (by omega)]

/-- A write keeps the canonical form. -/
theorem Memory.wf_write {m : Memory} (a : Word) (b : Byte) (h : m.wf = true) :
    (m.write a b).wf = true := by
  unfold Memory.write
  split
  · exact Memory.wfFrom_erase _ _ _ h
  · next hb => exact Memory.wfFrom_insert _ _ _ _ hb (Memory.toNat_lt_size a) (Nat.zero_le _) h

/-- Memory at reset is in canonical form. -/
theorem State.reset_pmem_wf : State.reset.pmem.wf = true := rfl

/-! ### Writes of several bytes -/

theorem Memory.wf_writeBytes (bs : List Byte) {m : Memory} (a : Word) (h : m.wf = true) :
    (m.writeBytes a bs).wf = true := by
  induction bs generalizing m a with
  | nil => exact h
  | cons b bs ih => exact ih (a + 1) (Memory.wf_write a b h)

@[simp] theorem Memory.writeBytes_nil (m : Memory) (a : Word) : m.writeBytes a [] = m := rfl

@[simp] theorem Memory.writeBytes_cons (m : Memory) (a : Word) (b : Byte) (bs : List Byte) :
    m.writeBytes a (b :: bs) = (m.write a b).writeBytes (a + 1) bs := rfl

end Sys2Proof.Machine
end

