-- ==== Sys2Proof/Laws/PerInstr.lean ====
section
/-! SUPPORT. A statement about every instruction as syntax, one lemma per constructor. -/

namespace Sys2Proof.Laws.EncodingShape

/-- The encoding has the length of the instruction's format, and a well-formed instruction's first byte
selects that format (30_encoding.md R70 to R72). -/
def Statement (i : Instr) : Prop :=
  (encode i).length = formatLength (instrFormat i)
    ∧ (i.wf = true → ∃ b0 rest, encode i = b0 :: rest ∧ opcodeFormat b0 = instrFormat i)

theorem nop : Statement .nop := ⟨rfl, fun _ => ⟨_, _, rfl, rfl⟩⟩
theorem playSet : Statement .playSet := ⟨rfl, fun _ => ⟨_, _, rfl, rfl⟩⟩
theorem play (imm : Byte) : Statement (.play imm) := ⟨rfl, fun _ => ⟨_, _, rfl, rfl⟩⟩
theorem instrumentSet : Statement .instrumentSet := ⟨rfl, fun _ => ⟨_, _, rfl, rfl⟩⟩
theorem instrument (imm : Byte) : Statement (.instrument imm) := ⟨rfl, fun _ => ⟨_, _, rfl, rfl⟩⟩
theorem wait16 (imm16 : Word) : Statement (.wait16 imm16) := ⟨rfl, fun _ => ⟨_, _, rfl, rfl⟩⟩
theorem wait (imm : Byte) : Statement (.wait imm) := ⟨rfl, fun _ => ⟨_, _, rfl, rfl⟩⟩
theorem ticks16 (imm16 : Word) : Statement (.ticks16 imm16) := ⟨rfl, fun _ => ⟨_, _, rfl, rfl⟩⟩
theorem ticks (imm : Byte) : Statement (.ticks imm) := ⟨rfl, fun _ => ⟨_, _, rfl, rfl⟩⟩
theorem gtEqual (imm : Byte) : Statement (.gtEqual imm) := ⟨rfl, fun _ => ⟨_, _, rfl, rfl⟩⟩
theorem ltEqual (imm : Byte) : Statement (.ltEqual imm) := ⟨rfl, fun _ => ⟨_, _, rfl, rfl⟩⟩
theorem gt (imm : Byte) : Statement (.gt imm) := ⟨rfl, fun _ => ⟨_, _, rfl, rfl⟩⟩
theorem lt (imm : Byte) : Statement (.lt imm) := ⟨rfl, fun _ => ⟨_, _, rfl, rfl⟩⟩
theorem equal (imm : Byte) : Statement (.equal imm) := ⟨rfl, fun _ => ⟨_, _, rfl, rfl⟩⟩
theorem sub (imm : Byte) : Statement (.sub imm) := ⟨rfl, fun _ => ⟨_, _, rfl, rfl⟩⟩
theorem add (imm : Byte) : Statement (.add imm) := ⟨rfl, fun _ => ⟨_, _, rfl, rfl⟩⟩
theorem setReg (imm : Byte) : Statement (.setReg imm) := ⟨rfl, fun _ => ⟨_, _, rfl, rfl⟩⟩
theorem reset : Statement .reset := ⟨rfl, fun _ => ⟨_, _, rfl, rfl⟩⟩
theorem syscall (imm16 : Word) : Statement (.syscall imm16) := ⟨rfl, fun _ => ⟨_, _, rfl, rfl⟩⟩
theorem ifNotRepeat : Statement .ifNotRepeat := ⟨rfl, fun _ => ⟨_, _, rfl, rfl⟩⟩
theorem ifRepeat : Statement .ifRepeat := ⟨rfl, fun _ => ⟨_, _, rfl, rfl⟩⟩
theorem repeatOp : Statement .repeatOp := ⟨rfl, fun _ => ⟨_, _, rfl, rfl⟩⟩
theorem sectionOp : Statement .sectionOp := ⟨rfl, fun _ => ⟨_, _, rfl, rfl⟩⟩
theorem ifNotJump (imm16 : Word) : Statement (.ifNotJump imm16) := ⟨rfl, fun _ => ⟨_, _, rfl, rfl⟩⟩
theorem ifJump (imm16 : Word) : Statement (.ifJump imm16) := ⟨rfl, fun _ => ⟨_, _, rfl, rfl⟩⟩
theorem jump (imm16 : Word) : Statement (.jump imm16) := ⟨rfl, fun _ => ⟨_, _, rfl, rfl⟩⟩
theorem halt : Statement .halt := ⟨rfl, fun _ => ⟨_, _, rfl, rfl⟩⟩

theorem bareNote (opcode : Byte) : Statement (.bareNote opcode) := by
  refine ⟨rfl, fun h => ⟨opcode, [], rfl, ?_⟩⟩
  have hb : 1 ≤ opcode.toNat ∧ opcode.toNat ≤ 229 := by
    simpa [Instr.wf, isBareNoteByte, BitVec.le_def] using h
  unfold opcodeFormat
  split <;> first | rfl | simp at hb

end Sys2Proof.Laws.EncodingShape
end

