-- ==== Sys2Proof/Laws/Sequencer.lean ====
section
/-! SUPPORT. One lemma per path of the dispatch algorithm, and the induction over the instruction loop,
packaged once. -/

namespace Sys2Proof.Machine

/-! ### The state in which the loop starts -/

@[simp] theorem State.phaseStart_base (s : State) : s.phaseStart.base = s.base := rfl
@[simp] theorem State.phaseStart_cursor (s : State) : s.phaseStart.cursor = s.cursor := rfl
@[simp] theorem State.phaseStart_register (s : State) : s.phaseStart.register = s.register := rfl
@[simp] theorem State.phaseStart_accumulator (s : State) :
    s.phaseStart.accumulator = s.accumulator := rfl
@[simp] theorem State.phaseStart_tickCounter (s : State) : s.phaseStart.tickCounter = s.tickRate := rfl
@[simp] theorem State.phaseStart_tickRate (s : State) : s.phaseStart.tickRate = s.tickRate := rfl
@[simp] theorem State.phaseStart_waitCounter (s : State) :
    s.phaseStart.waitCounter = s.waitCounter := rfl
@[simp] theorem State.phaseStart_halted (s : State) : s.phaseStart.halted = s.halted := rfl
@[simp] theorem State.phaseStart_syscallPulse (s : State) : s.phaseStart.syscallPulse = false := rfl
@[simp] theorem State.phaseStart_instrumentPulse (s : State) :
    s.phaseStart.instrumentPulse = false := rfl
@[simp] theorem State.phaseStart_playPulse (s : State) : s.phaseStart.playPulse = false := rfl
@[simp] theorem State.phaseStart_pmem (s : State) : s.phaseStart.pmem = s.pmem := rfl
@[simp] theorem State.phaseStart_events (s : State) : s.phaseStart.events = [] := rfl
@[simp] theorem State.phaseStart_fetch (s : State) : s.phaseStart.fetch = s.fetch := rfl

/-! ### The loop -/

variable {ex : Instr → State → Host.Outcome State Fault Refusal} {ends : Instr → Bool}

@[simp] theorem phaseLoop_zero (s : State) : phaseLoop ex ends 0 s = .next s := rfl

/-- One iteration whose instruction answers a next state. -/
theorem phaseLoop_succ {n : Nat} {s t : State} (h : ex s.fetch s = .next t) :
    phaseLoop ex ends (n + 1) s = if ends s.fetch then .next t else phaseLoop ex ends n t := by
  simp only [phaseLoop, h]

/-- The induction over the loop. `Q` holds before each iteration; a continuing instruction keeps it; what
the call returns meets `P` if a phase-ending instruction takes `Q` to `P` and `Q` itself gives `P`. -/
theorem phaseLoop_induct {Q P : State → Prop}
    (hgo : ∀ i s t, Q s → ends i = false → ex i s = .next t → Q t)
    (hend : ∀ i s t, Q s → ends i = true → ex i s = .next t → P t)
    (hcut : ∀ s, Q s → P s) (n : Nat) (s t : State) (hs : Q s)
    (h : phaseLoop ex ends n s = .next t) : P t := by
  induction n generalizing s with
  | zero =>
    rw [phaseLoop_zero] at h
    injection h with h
    exact h ▸ hcut s hs
  | succ n ih =>
    cases he : ex s.fetch s with
    | fault r => simp [phaseLoop, he] at h
    | refused r => simp [phaseLoop, he] at h
    | next u =>
      rw [phaseLoop_succ he] at h
      cases hf : ends s.fetch with
      | true => rw [hf, if_pos rfl] at h; cases h; exact hend _ _ _ hs hf he
      | false => rw [hf, if_neg (by decide)] at h; exact ih u (hgo _ _ _ hs hf he) h

/-- A loop over answering meanings answers. -/
theorem phaseLoop_answers (hex : ∀ i s, ∃ t, ex i s = .next t) (n : Nat) (s : State) :
    ∃ t, phaseLoop ex ends n s = .next t := by
  induction n generalizing s with
  | zero => exact ⟨s, rfl⟩
  | succ n ih =>
    obtain ⟨t, ht⟩ := hex s.fetch s
    rw [phaseLoop_succ ht]
    split
    · exact ⟨t, rfl⟩
    · exact ih t

/-! ### What a call fetches and how it ends -/

theorem loopFetches_succ {n : Nat} {s t : State} (h : exec s.fetch s = .next t) :
    loopFetches (n + 1) s =
      if endsPhase Config.hardware s.fetch then 1 else 1 + loopFetches n t := by
  simp only [loopFetches, instrStep, h]

theorem loopEnds_succ {n : Nat} {s t : State} (h : exec s.fetch s = .next t) :
    loopEnds (n + 1) s = (endsPhase Config.hardware s.fetch || loopEnds n t) := by
  simp only [loopEnds, instrStep, h]

theorem callFetches_halted {s : State} (h : s.halted = true) : callFetches s = 0 := by
  unfold callFetches
  rw [if_pos h]

theorem callFetches_throttled {s : State} (ht : s.tickCounter ≠ 0) : callFetches s = 0 := by
  unfold callFetches
  rw [if_pos ht, ite_self]

theorem callFetches_waiting {s : State} (hw : s.waitCounter ≠ 0) : callFetches s = 0 := by
  unfold callFetches
  rw [if_pos hw, ite_self, ite_self]

theorem callFetches_open {s : State} (h : s.gatesOpen) :
    callFetches s = loopFetches Config.hardware.loopBound s.phaseStart := by
  unfold callFetches
  rw [if_neg (by simp [h.1]), if_neg (not_not_intro h.2.1), if_neg (not_not_intro h.2.2)]

theorem callKind_throttled {s : State} (h : s.halted = false) (ht : s.tickCounter ≠ 0) :
    callKind s = .throttled := by
  unfold callKind
  rw [if_neg (by simp [h]), if_pos ht]

theorem callKind_waiting {s : State} (h : s.halted = false) (ht : s.tickCounter = 0)
    (hw : s.waitCounter ≠ 0) : callKind s = .waiting := by
  unfold callKind
  rw [if_neg (by simp [h]), if_neg (not_not_intro ht), if_pos hw]

theorem callKind_open {s : State} (h : s.gatesOpen) :
    callKind s =
      if loopEnds Config.hardware.loopBound s.phaseStart then .ended else .truncated := by
  unfold callKind
  rw [if_neg (by simp [h.1]), if_neg (not_not_intro h.2.1), if_neg (not_not_intro h.2.2)]

/-! ### The gates -/

variable {bound : Nat} {s : State}

theorem dispatchBy_halted (h : s.halted = true) :
    dispatchBy ex ends bound s = .next (s.beginCall.emit .halt) := by
  simp [dispatchBy, h]

theorem dispatchBy_throttled (h : s.halted = false) (ht : s.tickCounter ≠ 0) :
    dispatchBy ex ends bound s = .next s.beginCall.throttle := by
  unfold dispatchBy
  rw [if_neg (by simp [h]), if_pos ht]

theorem dispatchBy_waiting (h : s.halted = false) (ht : s.tickCounter = 0) (hw : s.waitCounter ≠ 0) :
    dispatchBy ex ends bound s = .next s.phaseStart.consumeWait := by
  unfold dispatchBy
  rw [if_neg (by simp [h]), if_neg (not_not_intro ht), if_pos hw]
  rfl

theorem dispatchBy_open (h : s.gatesOpen) :
    dispatchBy ex ends bound s = phaseLoop ex ends bound s.phaseStart := by
  unfold dispatchBy
  rw [if_neg (by simp [h.1]), if_neg (not_not_intro h.2.1), if_neg (not_not_intro h.2.2)]
  rfl

/-- Everything a dispatch call can do: one of the four paths. -/
theorem dispatchBy_cases {t : State} (h : dispatchBy ex ends bound s = .next t) :
    (s.halted = true ∧ t = s.beginCall.emit .halt)
      ∨ (s.halted = false ∧ s.tickCounter ≠ 0 ∧ t = s.beginCall.throttle)
      ∨ (s.halted = false ∧ s.tickCounter = 0 ∧ s.waitCounter ≠ 0 ∧ t = s.phaseStart.consumeWait)
      ∨ (s.gatesOpen ∧ phaseLoop ex ends bound s.phaseStart = .next t) := by
  cases hh : s.halted with
  | true => rw [dispatchBy_halted hh] at h; cases h; exact .inl ⟨rfl, rfl⟩
  | false =>
    by_cases ht : s.tickCounter = 0
    · by_cases hw : s.waitCounter = 0
      · have ho : s.gatesOpen := ⟨hh, ht, hw⟩
        rw [dispatchBy_open ho] at h; exact .inr (.inr (.inr ⟨ho, h⟩))
      · rw [dispatchBy_waiting hh ht hw] at h; cases h; exact .inr (.inr (.inl ⟨rfl, ht, hw, rfl⟩))
    · rw [dispatchBy_throttled hh ht] at h; cases h; exact .inr (.inl ⟨rfl, ht, rfl⟩)

end Sys2Proof.Machine
end

