-- ==== Sys2Proof/Laws/Step.lean ====
section
/-! SUPPORT. `step` path by path, runs of several steps, where a placed instruction stands, and the
register of a variant that comes from a state of the machine. -/

namespace Sys2Proof.Machine

variable {s t : State}

/-! ### One step -/

theorem step_halted (h : s.halted = true) : step s = .next (s.beginCall.emit .halt) :=
  dispatchBy_halted h

theorem step_throttled (h : s.halted = false) (ht : s.tickCounter ≠ 0) :
    step s = .next s.beginCall.throttle :=
  dispatchBy_throttled h ht

theorem step_waiting (h : s.halted = false) (ht : s.tickCounter = 0) (hw : s.waitCounter ≠ 0) :
    step s = .next s.phaseStart.consumeWait :=
  dispatchBy_waiting h ht hw

theorem step_open (h : s.gatesOpen) :
    step s = phaseLoop exec (endsPhase Config.hardware) 255 s.phaseStart :=
  dispatchBy_open h

/-- A call whose first instruction ends the phase is that instruction, after reload and clear. -/
theorem step_of_ending (h : s.gatesOpen) (he : endsPhase Config.hardware s.fetch = true)
    (hx : exec s.fetch s.phaseStart = .next t) : step s = .next t := by
  rw [step_open h, phaseLoop_succ (by rw [State.phaseStart_fetch]; exact hx), State.phaseStart_fetch,
    if_pos he]

/-! ### Runs -/

theorem core_run_zero (s : State) : core.run 0 s = .next s := rfl

theorem core_run_succ {k : Nat} (h : step s = .next t) : core.run (k + 1) s = core.run k t := by
  have h' : core.step s = .next t := h
  simp only [Host.Core.run, h']

/-! ### Placing an instruction -/

@[simp] theorem State.withFetchWord_codeAddr (s : State) (nbits w k : Nat) :
    (s.withFetchWord nbits w).codeAddr k = s.codeAddr k := rfl

theorem State.withFetchWord_gatesOpen (s : State) (nbits w : Nat) :
    (s.withFetchWord nbits w).gatesOpen := ⟨rfl, rfl, rfl⟩

/-- What is placed is what is fetched. -/
theorem State.withFetchWord_codeByte (s : State) (nbits w k : Nat) (hk : k < 3) :
    (s.withFetchWord nbits w).codeByte k = tableByte nbits w k := by
  have hs : (s.withFetchWord nbits w).codeByte k
      = Memory.lookup (s.codeAddr 0 + BitVec.ofNat 16 k).toNat
        (s.pmem.writeBytes (s.codeAddr 0) (tableBytes nbits w)) := by
    rw [show s.codeAddr 0 + BitVec.ofNat 16 k = s.codeAddr k by simp [State.codeAddr]]
    rfl
  rw [hs]
  generalize s.codeAddr 0 = a
  have ha := a.isLt
  have e0 : (a + BitVec.ofNat 16 k).toNat = (a.toNat + k) % 65536 := by
    rw [BitVec.toNat_add, BitVec.toNat_ofNat]
    omega
  have e1 : (a + 1).toNat = (a.toNat + 1) % 65536 := BitVec.toNat_add a 1
  have e2 : (a + 1 + 1).toNat = (a.toNat + 2) % 65536 := by
    rw [BitVec.toNat_add, e1]
    simp
  simp only [tableBytes, Memory.writeBytes_cons, Memory.writeBytes_nil, Memory.lookup_write, e0, e1, e2]
  rcases (by omega : k = 0 ∨ k = 1 ∨ k = 2) with rfl | rfl | rfl
  · rw [if_neg (by omega), if_neg (by omega), if_pos (by omega)]
  · rw [if_neg (by omega), if_pos rfl]
  · rw [if_pos rfl]

/-! ### Variants -/

/-- `A(k)` of the machine is `A(k)` at this hardware's `PADDR_BITS`. -/
theorem codeAddrBy_hardware (s : State) (k : Nat) :
    codeAddrBy Config.hardware s k = (s.codeAddr k).toNat := by
  simp [codeAddrBy, unreducedAddr, State.codeAddr, BitVec.toNat_add, Config.hardware]

theorem fetchBy_hardware (s : State) : fetchBy Config.hardware s = s.fetch := by
  simp only [fetchBy, codeByteBy, codeAddrBy_hardware]
  rfl

/-- Where no address of the fetch passes the last one of a narrower space, the machine reads the same
addresses. -/
theorem codeAddrBy_of_unwrapped {c : Config} {s : State} {k : Nat} (hp : c.paddrBits ≤ 16)
    (h : unreducedAddr s k < 2 ^ c.paddrBits) : codeAddrBy c s k = (s.codeAddr k).toNat := by
  have := Nat.pow_le_pow_right (show 0 < 2 by decide) hp
  rw [← codeAddrBy_hardware, codeAddrBy, codeAddrBy, Nat.mod_eq_of_lt h,
    Nat.mod_eq_of_lt (show _ < 2 ^ Config.hardware.paddrBits from Nat.lt_of_lt_of_le h this)]

/-- One iteration of a variant's loop whose instruction answers a next state. -/
theorem variantLoop_succ {c : Config} {n : Nat} {v w : Variant}
    (h : variantInstrStep c v = .next w) : variantLoop c (n + 1) v =
      if endsPhase c (fetchBy c v.core) then .next w else variantLoop c n w := by
  simp only [variantLoop, h]

/-- An instruction step that answers was allowed its fetch. -/
theorem variantInstrStep_next {c : Config} {v w : Variant} (h : variantInstrStep c v = .next w) :
    fetchUnwrapped c v.core = true ∧ fetchAllowed c v.core = true
      ∧ execVariant c (fetchBy c v.core) v = .next w := by
  unfold variantInstrStep at h
  split at h
  · next hu =>
    split at h
    · next ha => exact ⟨hu, ha, h⟩
    · cases h
  · cases h

/-- The register of a machine state is an 8-bit payload. -/
theorem Variant.payload_ofState (s : State) : (Variant.ofState s).payload = some s.register := by
  have := s.register.isLt
  unfold Variant.payload
  rw [if_pos (by simp only [Variant.ofState]; omega)]
  simp [Variant.ofState]

end Sys2Proof.Machine
end

