-- ==== Sys2Proof/Laws/Transactions.lean ====
section
/-! SUPPORT. What the host transactions over a system of Tracks do, one lemma per operation. -/

namespace Sys2Proof.Machine

/-! ### The buffer in program memory -/

/-- A write to address `k` below 65536, read back at `j`. -/
theorem Memory.read_write_ofNat (m : Memory) {k j : Nat} (b : Byte) (hk : k < Memory.size)
    (hj : j < Memory.size) : (m.write (BitVec.ofNat 16 k) b).read (BitVec.ofNat 16 j)
      = if j = k then b else m.read (BitVec.ofNat 16 j) := by
  simp only [Memory.size] at hk hj
  simp only [Memory.read, Memory.lookup_write, BitVec.toNat_ofNat, Nat.mod_eq_of_lt hk,
    Nat.mod_eq_of_lt hj]

@[simp] theorem System.length_contents (y : System) : y.contents.length = y.bufferLength := by
  simp [System.contents, System.bufferLength]

/-- Byte `k` of the buffer, where it has a location, is the byte of program memory at address `k`. -/
theorem System.contents_below {y : System} {k : Nat} (h : k < y.bufLen) :
    y.contents[k]? = some (y.pmem.read (BitVec.ofNat 16 k)) := by
  rw [System.contents, List.getElem?_append_left (by simpa using h)]
  simp [h]

/-- Byte `k` of the buffer past the last that has a location. -/
theorem System.contents_above {y : System} {k : Nat} (h : y.bufLen ≤ k) :
    y.contents[k]? = y.beyond[k - y.bufLen]? := by
  rw [System.contents, List.getElem?_append_right (by simpa using h)]
  simp

/-! ### Appending -/

/-- Everything `appendByte` does to a well-formed buffer. -/
theorem System.appendByte_spec {y : System} (b : Byte) (h : y.bufferWf) :
    (y.appendByte b).bufferWf ∧ (y.appendByte b).contents = y.contents ++ [b]
      ∧ (y.appendByte b).tracks = y.tracks ∧ y.bufLen ≤ (y.appendByte b).bufLen := by
  unfold System.appendByte
  split
  · next hl =>
    have hb : y.beyond = [] := h.2.resolve_right (by omega)
    refine ⟨⟨hl, .inl hb⟩, ?_, rfl, Nat.le_succ _⟩
    simp only [System.contents, hb, List.append_nil, List.range_succ, List.map_append, List.map_cons,
      List.map_nil, Memory.read_write_ofNat _ _ hl hl, if_true]
    congr 1
    refine List.map_congr_left fun k hk => ?_
    rw [List.mem_range] at hk
    rw [Memory.read_write_ofNat _ _ hl (by omega), if_neg (by omega)]
  · next hl =>
    refine ⟨⟨h.1, .inr (by have := h.1; show y.bufLen = _; omega)⟩, ?_, rfl, Nat.le_refl _⟩
    simp only [System.contents, List.append_assoc]

/-- What `appendByte` leaves alone, whatever the buffer: the Tracks, the canonical form, every byte of
program memory but the one at the buffer's length, and the length but for one. -/
theorem System.appendByte_frame (y : System) (b : Byte) :
    (y.appendByte b).tracks = y.tracks ∧ (y.pmem.wf = true → (y.appendByte b).pmem.wf = true)
      ∧ y.bufLen ≤ (y.appendByte b).bufLen ∧ (y.appendByte b).bufLen ≤ y.bufLen + 1
      ∧ ∀ a : Word, a.toNat ≠ y.bufLen → (y.appendByte b).pmem.read a = y.pmem.read a := by
  unfold System.appendByte
  split
  · next hl =>
    refine ⟨rfl, fun h => Memory.wf_write _ _ h, Nat.le_succ _, Nat.le_refl _, fun a ha => ?_⟩
    simp only [Memory.size] at hl
    simp only [Memory.read, Memory.lookup_write, BitVec.toNat_ofNat, Nat.mod_eq_of_lt hl, if_neg ha]
  · exact ⟨rfl, id, Nat.le_refl _, Nat.le_succ _, fun _ _ => rfl⟩

/-- Everything `appendBytes` does to a well-formed buffer. -/
theorem System.appendBytes_spec (bs : List Byte) {y : System} (h : y.bufferWf) :
    (y.appendBytes bs).bufferWf ∧ (y.appendBytes bs).contents = y.contents ++ bs := by
  induction bs generalizing y with
  | nil => exact ⟨h, (List.append_nil _).symm⟩
  | cons b bs ih =>
    obtain ⟨hw, hc, -, -⟩ := System.appendByte_spec b h
    obtain ⟨iw, ic⟩ := ih hw
    exact ⟨iw, by rw [System.appendBytes, ic, hc, List.append_assoc]; rfl⟩

/-- What `appendBytes` leaves alone, whatever the buffer. -/
theorem System.appendBytes_frame (bs : List Byte) (y : System) :
    (y.appendBytes bs).tracks = y.tracks ∧ (y.pmem.wf = true → (y.appendBytes bs).pmem.wf = true)
      ∧ ∀ a : Word, (a.toNat < y.bufLen ∨ y.bufLen + bs.length ≤ a.toNat) →
        (y.appendBytes bs).pmem.read a = y.pmem.read a := by
  induction bs generalizing y with
  | nil => exact ⟨rfl, id, fun _ _ => rfl⟩
  | cons b bs ih =>
    obtain ⟨ht, hw, h1, h2, hm⟩ := System.appendByte_frame y b
    obtain ⟨it, iw, im⟩ := ih (y.appendByte b)
    refine ⟨it.trans ht, fun h => iw (hw h), fun a ha => ?_⟩
    rw [List.length_cons] at ha
    exact (im a (by omega)).trans (hm a (by omega))

/-! ### The transactions on one Track of a system -/

/-- Everything a dispatch request can do: one step of the named Track over the shared memory. -/
theorem System.dispatch_next {y z : System} {k : Nat} {p : Reply} (h : y.dispatch k = .next (z, p)) :
    ∃ t s, y.tracks[k]? = some t ∧ step (t.over y.pmem) = .next s ∧ z = y.setTrack k s.toTrack
      ∧ p = .events s.events := by
  unfold System.dispatch at h
  split at h
  · cases h
  · next t ht =>
    split at h <;> cases h
    next s hs => exact ⟨t, s, ht, hs, rfl, rfl⟩

/-- A dispatch request for a Track that exists is one step of it. -/
theorem System.dispatch_of_step {y : System} {k : Nat} {t : Track} {s : State}
    (ht : y.tracks[k]? = some t) (hs : step (t.over y.pmem) = .next s) :
    y.dispatch k = .next (y.setTrack k s.toTrack, .events s.events) := by
  simp only [System.dispatch, ht, hs]

/-- Everything a reset request can do. -/
theorem System.resetTrack_next {y z : System} {k : Nat} {p : Reply}
    (h : y.resetTrack k = .next (z, p)) :
    ∃ t, y.tracks[k]? = some t ∧ z = y.setTrack k t.hostReset ∧ p = .nothing := by
  unfold System.resetTrack at h
  split at h
  · cases h
  · next t ht => cases h; exact ⟨t, ht, rfl, rfl⟩

/-- Everything an observation can do: nothing. -/
theorem System.observe_next {y z : System} {k : Nat} {p : Reply} (h : y.observe k = .next (z, p)) :
    ∃ t, y.tracks[k]? = some t ∧ z = y ∧ p = .observed t.observe := by
  unfold System.observe at h
  split at h
  · cases h
  · next t ht => cases h; exact ⟨t, ht, rfl, rfl⟩

@[simp] theorem System.setTrack_bufLen (y : System) (k : Nat) (t : Track) :
    (y.setTrack k t).bufLen = y.bufLen := rfl
@[simp] theorem System.setTrack_beyond (y : System) (k : Nat) (t : Track) :
    (y.setTrack k t).beyond = y.beyond := rfl
@[simp] theorem System.setTrack_pmem (y : System) (k : Nat) (t : Track) :
    (y.setTrack k t).pmem = y.pmem := rfl
@[simp] theorem System.setTrack_tracks (y : System) (k : Nat) (t : Track) :
    (y.setTrack k t).tracks = y.tracks.set k t := rfl

/-- After a Track is replaced, a member of the system is that Track or was one before. -/
theorem System.mem_setTrack {y : System} {k : Nat} {t u : Track} (h : u ∈ (y.setTrack k t).tracks) :
    u ∈ y.tracks ∨ u = t :=
  List.mem_or_eq_of_mem_set h

end Sys2Proof.Machine
end

