-- ==== Sys2Proof/Tests/Slice0.lean ====
section
/-! SUPPORT. The model's own tests. Expected results are the spec's: section 2 of 95_test_vectors.md,
whose row each test names, or hand reading of the rule in the comment. Then one witness for each
obligation that has hypotheses. -/

namespace Sys2Proof.Tests

open Sys2Proof Sys2Proof.Machine

set_option maxRecDepth 20000 -- a call may run 255 instructions

/-! ### Well-formedness (30_encoding.md R75): the bare-note check refuses what is no bare note's byte -/

theorem test_wf_refuses_nop_byte : (Instr.bareNote 0x00).wf = false := by decide
theorem test_wf_refuses_playset_byte : (Instr.bareNote 0xE6).wf = false := by decide
theorem test_wf_refuses_reset_byte : (Instr.bareNote 0xF6).wf = false := by decide
theorem test_wf_refuses_halt_byte : (Instr.bareNote 0xFF).wf = false := by decide
theorem test_wf_accepts_bounds :
    (Instr.bareNote 0x01).wf = true ∧ (Instr.bareNote 0xE5).wf = true := by decide

/-! ### Decoding: words written out from the table of 30_encoding.md R75, first byte lowest

`FE 34 12` is the word 0x1234FE: opcode in bits 7 to 0, low operand byte in bits 15 to 8. -/

theorem test_decode_control_f0 :
    decodeTableWord 8 0x00 = some .nop ∧ decodeTableWord 8 0xFF = some .halt
      ∧ decodeTableWord 8 0xFB = some .sectionOp ∧ decodeTableWord 8 0xFA = some .repeatOp
      ∧ decodeTableWord 8 0xF9 = some .ifRepeat ∧ decodeTableWord 8 0xF8 = some .ifNotRepeat := by
  decide

theorem test_decode_jumps :
    decodeTableWord 24 0x1234FE = some (.jump 0x1234)
      ∧ decodeTableWord 24 0x000AFD = some (.ifJump 10)
      ∧ decodeTableWord 24 0x0100FC = some (.ifNotJump 256) := by decide

theorem test_decode_system :
    decodeTableWord 24 0x1234F7 = some (.syscall 0x1234) ∧ decodeTableWord 8 0xF6 = some .reset := by
  decide

theorem test_decode_arithmetic :
    decodeTableWord 16 0xFFF5 = some (.setReg 255) ∧ decodeTableWord 16 0x01F4 = some (.add 1)
      ∧ decodeTableWord 16 0x02F3 = some (.sub 2) := by decide

theorem test_decode_comparisons :
    decodeTableWord 16 0x08F2 = some (.equal 8) ∧ decodeTableWord 16 0x09F1 = some (.lt 9)
      ∧ decodeTableWord 16 0x07F0 = some (.gt 7) ∧ decodeTableWord 16 0x00EF = some (.ltEqual 0)
      ∧ decodeTableWord 16 0x80EE = some (.gtEqual 128) := by decide

theorem test_decode_timing :
    decodeTableWord 16 0x02ED = some (.ticks 2) ∧ decodeTableWord 24 0x012CEC = some (.ticks16 300)
      ∧ decodeTableWord 16 0x03EB = some (.wait 3)
      ∧ decodeTableWord 24 0x03E8EA = some (.wait16 1000) := by decide

theorem test_decode_events :
    decodeTableWord 16 0x02E9 = some (.instrument 2) ∧ decodeTableWord 8 0xE8 = some .instrumentSet
      ∧ decodeTableWord 16 0x3CE7 = some (.play 60) ∧ decodeTableWord 8 0xE6 = some .playSet := by
  decide

theorem test_decode_bareNote :
    decodeTableWord 8 0x01 = some (.bareNote 1) ∧ decodeTableWord 8 0x3C = some (.bareNote 60)
      ∧ decodeTableWord 8 0xE5 = some (.bareNote 229) := by decide

/-- The only byte strings without an instruction are those that end too early (30_encoding.md R70). -/
theorem test_decode_needs_all_bytes :
    decodeBytes [] = .error .empty ∧ decodeBytes [0xF5] = .error .truncated
      ∧ decodeBytes [0xFE, 0x34] = .error .truncated ∧ decodeBytes [0x3C] = .ok (.bareNote 60, []) := by
  exact ⟨rfl, rfl, rfl, rfl⟩

/-- Section 2.2 of 95_test_vectors.md: 8 + 230 opcodes of format F0, 12 of F8, 6 of F16. -/
theorem test_format_counts :
    ((List.range 256).filter fun b => opcodeFormat (BitVec.ofNat 8 b) == .f0).length = 238
      ∧ ((List.range 256).filter fun b => opcodeFormat (BitVec.ofNat 8 b) == .f8).length = 12
      ∧ ((List.range 256).filter fun b => opcodeFormat (BitVec.ofNat 8 b) == .f16).length = 6 := by
  decide

/-! ### The assembler (section 2.1 of 95_test_vectors.md) -/

theorem test_assemble_A3_A10 :
    (AsmCall.op16 .jump (.int 0x1234)).bytes = [0xFE, 0x34, 0x12]
      ∧ (AsmCall.op16 .syscall (.int 65535)).bytes = [0xF7, 0xFF, 0xFF] := by decide

theorem test_coercion_A30_A34 :
    (AsmCall.op8 .play (.int (-1))).bytes = [0xE7, 0x01]
      ∧ (AsmCall.op8 .play (.int 256)).bytes = [0xE7, 0x00]
      ∧ (AsmCall.op8 .setReg (.int (-300))).bytes = [0xF5, 0x2C]
      ∧ (AsmCall.op16 .jump (.int 65536)).bytes = [0xFE, 0x00, 0x00]
      ∧ (AsmCall.op16 .jump (.int (-2))).bytes = [0xFE, 0x02, 0x00] := by decide

theorem test_coercion_A35_A36 :
    (AsmCall.op8 .wait (.int 300)).bytes = [0xEB, 0x2C]
      ∧ (AsmCall.op16 .ticks16 (.int (-1))).bytes = [0xEC, 0x01, 0x00]
      ∧ (AsmCall.op8 .setReg .nonNumeric).bytes = [0xF5, 0x00] := by decide

/-! ### One instruction (section 2.3 of 95_test_vectors.md) -/

/-- The next state of an outcome, if there is one. -/
def answer (o : Host.Outcome State Fault Refusal) : Option State :=
  match o with
  | .next t => some t
  | .fault _ => none
  | .refused _ => none

/-- The reset state at offset `o` with `bytes` there. -/
def codeAt (o : Word) (bytes : List Byte) : State := (State.reset.jumpTo o).placeCode bytes

/-- The start states of section 2.3. -/
def at16 (bytes : List Byte) : State := codeAt 16 bytes

theorem test_nop_S1 : answer (instrStep (at16 [0x00])) =
    some { at16 [0x00] with cursor := 17 } := by decide

theorem test_halt_S2 : answer (instrStep (at16 [0xFF])) =
    some { at16 [0xFF] with cursor := 17, halted := true, events := [.halt] } := by decide

theorem test_jump_S3 : answer (instrStep (at16 [0xFE, 0x34, 0x12])) =
    some { at16 [0xFE, 0x34, 0x12] with cursor := 4660 } := by decide

theorem test_jump_S4 : answer (instrStep (at16 [0xFE, 0x10, 0x00])) =
    some (at16 [0xFE, 0x10, 0x00]) := by decide

theorem test_ifJump_S5 : answer (instrStep { at16 [0xFD, 0x00, 0x01] with accumulator := true }) =
    some { at16 [0xFD, 0x00, 0x01] with accumulator := true, cursor := 256 } := by decide

theorem test_ifJump_S6 : answer (instrStep (at16 [0xFD, 0x00, 0x01])) =
    some { at16 [0xFD, 0x00, 0x01] with cursor := 18 } := by decide

theorem test_ifNotJump_S7 : answer (instrStep (at16 [0xFC, 0xFF, 0xFF])) =
    some { at16 [0xFC, 0xFF, 0xFF] with cursor := 65535 } := by decide

theorem test_ifNotJump_S8
    : answer (instrStep { at16 [0xFC, 0xFF, 0xFF] with accumulator := true }) =
    some { at16 [0xFC, 0xFF, 0xFF] with accumulator := true, cursor := 18 } := by decide

theorem test_section_S9 : answer (instrStep (at16 [0xFB])) =
    some { at16 [0xFB] with cursor := 17, sectionAnchor := 16 } := by decide

theorem test_section_S10 : answer (instrStep (codeAt 65535 [0xFB])) =
    some { codeAt 65535 [0xFB] with cursor := 0, sectionAnchor := 65535 } := by decide

theorem test_repeat_S11 : answer (instrStep { at16 [0xFA] with sectionAnchor := 5 }) =
    some { at16 [0xFA] with sectionAnchor := 5, cursor := 5 } := by decide

theorem test_repeat_S12 : answer (instrStep (at16 [0xFA])) =
    some { at16 [0xFA] with cursor := 0 } := by decide

theorem test_ifRepeat_S13
    : answer (instrStep { at16 [0xF9] with accumulator := true, sectionAnchor := 5 }) =
    some { at16 [0xF9] with accumulator := true, sectionAnchor := 5, cursor := 5 } := by decide

theorem test_ifRepeat_S14 : answer (instrStep { at16 [0xF9] with sectionAnchor := 5 }) =
    some { at16 [0xF9] with sectionAnchor := 5, cursor := 17 } := by decide

theorem test_ifNotRepeat_S15 : answer (instrStep { at16 [0xF8] with sectionAnchor := 5 }) =
    some { at16 [0xF8] with sectionAnchor := 5, cursor := 5 } := by decide

theorem test_ifNotRepeat_S16
    : answer (instrStep { at16 [0xF8] with accumulator := true, sectionAnchor := 5 }) =
    some { at16 [0xF8] with accumulator := true, sectionAnchor := 5, cursor := 17 } := by decide

theorem test_set_S20
    : answer (instrStep { at16 [0xF5, 0x2A] with register := 7, accumulator := true }) =
    some { at16 [0xF5, 0x2A] with register := 42, accumulator := true, cursor := 18 } := by decide

theorem test_add_S22 : answer (instrStep { at16 [0xF4, 0x64] with register := 200 }) =
    some { at16 [0xF4, 0x64] with register := 44, cursor := 18 } := by decide

theorem test_add_S23 : answer (instrStep { at16 [0xF4, 0x01] with register := 255 }) =
    some { at16 [0xF4, 0x01] with register := 0, cursor := 18 } := by decide

theorem test_sub_S26 : answer (instrStep (at16 [0xF3, 0x01])) =
    some { at16 [0xF3, 0x01] with cursor := 18, register := 255 } := by decide

theorem test_sub_S27 : answer (instrStep { at16 [0xF3, 0xFF] with register := 1 }) =
    some { at16 [0xF3, 0xFF] with register := 2, cursor := 18 } := by decide

theorem test_equal_S28 : answer (instrStep { at16 [0xF2, 0x08] with register := 8 }) =
    some { at16 [0xF2, 0x08] with register := 8, cursor := 18, accumulator := true } := by decide

theorem test_equal_S29
    : answer (instrStep { at16 [0xF2, 0x09] with register := 8, accumulator := true }) =
    some { at16 [0xF2, 0x09] with register := 8, accumulator := false, cursor := 18 } := by decide

theorem test_lt_S30 : answer (instrStep { at16 [0xF1, 0x09] with register := 8 }) =
    some { at16 [0xF1, 0x09] with register := 8, cursor := 18, accumulator := true } := by decide

theorem test_lt_S31
    : answer (instrStep { at16 [0xF1, 0x08] with register := 8, accumulator := true }) =
    some { at16 [0xF1, 0x08] with register := 8, accumulator := false, cursor := 18 } := by decide

theorem test_gt_S33 : answer (instrStep { at16 [0xF0, 0x07] with register := 8 }) =
    some { at16 [0xF0, 0x07] with register := 8, cursor := 18, accumulator := true } := by decide

theorem test_gt_S35 : answer (instrStep { at16 [0xF0, 0x7F] with register := 255 }) =
    some { at16 [0xF0, 0x7F] with register := 255, cursor := 18, accumulator := true } := by decide

theorem test_ltEqual_S36 : answer (instrStep { at16 [0xEF, 0x08] with register := 8 }) =
    some { at16 [0xEF, 0x08] with register := 8, cursor := 18, accumulator := true } := by decide

theorem test_ltEqual_S37
    : answer (instrStep { at16 [0xEF, 0x07] with register := 8, accumulator := true }) =
    some { at16 [0xEF, 0x07] with register := 8, accumulator := false, cursor := 18 } := by decide

theorem test_gtEqual_S39 : answer (instrStep { at16 [0xEE, 0x08] with register := 8 }) =
    some { at16 [0xEE, 0x08] with register := 8, cursor := 18, accumulator := true } := by decide

theorem test_gtEqual_S40
    : answer (instrStep { at16 [0xEE, 0x09] with register := 8, accumulator := true }) =
    some { at16 [0xEE, 0x09] with register := 8, accumulator := false, cursor := 18 } := by decide

theorem test_ticks_S51 : answer (instrStep { at16 [0xED, 0x05] with tickRate := 4660 }) =
    some { at16 [0xED, 0x05] with tickRate := 5, cursor := 18 } := by decide

theorem test_ticks16_S53 : answer (instrStep (at16 [0xEC, 0x2C, 0x01])) =
    some { at16 [0xEC, 0x2C, 0x01] with cursor := 19, tickRate := 300 } := by decide

theorem test_wait_S55 : answer (instrStep (at16 [0xEB, 0x03])) =
    some { at16 [0xEB, 0x03] with cursor := 18, waitCounter := 3 } := by decide

theorem test_wait_S57 : answer (instrStep (at16 [0xEB, 0xFF])) =
    some { at16 [0xEB, 0xFF] with cursor := 18, waitCounter := 255 } := by decide

theorem test_wait16_S58 : answer (instrStep (at16 [0xEA, 0xE8, 0x03])) =
    some { at16 [0xEA, 0xE8, 0x03] with cursor := 19, waitCounter := 1000 } := by decide

theorem test_instrument_S60 : answer (instrStep (at16 [0xE9, 0x07])) =
    some { at16 [0xE9, 0x07] with
      cursor := 18, instrument := 7, instrumentPulse := true, events := [.instrument 7] } := by decide

theorem test_instrumentSet_S61 : answer (instrStep { at16 [0xE8] with register := 9 }) =
    some { at16 [0xE8] with
      register := 9, cursor := 17, instrument := 9, instrumentPulse := true, events := [.instrument 9] } := by
  decide

theorem test_instrumentSet_S62 : answer (instrStep (at16 [0xE8])) =
    some { at16 [0xE8] with cursor := 17, instrumentPulse := true, events := [.instrument 0] } := by
  decide

theorem test_play_S63 : answer (instrStep (at16 [0xE7, 0x3C])) =
    some { at16 [0xE7, 0x3C] with
      cursor := 18, note := 60, playPulse := true, events := [.play 60] } := by decide

theorem test_play_S64 : answer (instrStep { at16 [0xE7, 0x00] with note := 9 }) =
    some { at16 [0xE7, 0x00] with
      note := 0, cursor := 18, playPulse := true, events := [.play 0] } := by decide

theorem test_playSet_S65 : answer (instrStep { at16 [0xE6] with register := 255 }) =
    some { at16 [0xE6] with
      register := 255, cursor := 17, note := 255, playPulse := true, events := [.play 255] } := by decide

theorem test_bareNote_S66 : answer (instrStep (at16 [0x01])) =
    some { at16 [0x01] with cursor := 17, note := 1, playPulse := true, events := [.play 1] } := by
  decide

theorem test_bareNote_S67 : answer (instrStep (at16 [0xE5])) =
    some { at16 [0xE5] with
      cursor := 17, note := 229, playPulse := true, events := [.play 229] } := by decide

theorem test_reset_S68 : answer (instrStep (at16 [0xF6])) =
    some { at16 [0xF6] with
      cursor := 17, note := 246, playPulse := true, events := [.play 246] } := by decide

theorem test_syscall_S69 : answer (instrStep (at16 [0xF7, 0x34, 0x12])) =
    some { at16 [0xF7, 0x34, 0x12] with
      cursor := 19, syscallCode := 4660, syscallPulse := true, events := [.syscall 0x1234] } := by decide

theorem test_syscall_S70 : answer (instrStep { at16 [0xF7, 0x00, 0x00] with syscallCode := 99 }) =
    some { at16 [0xF7, 0x00, 0x00] with
      syscallCode := 0, cursor := 19, syscallPulse := true, events := [.syscall 0x0000] } := by decide

/-- Column "outcome" of section 2.3: the instructions that end the phase, and those that do not. -/
theorem test_outcomes :
    ([.nop, .ticks 5, .ticks16 300, .wait 0, .wait16 1000, .instrument 7, .instrumentSet, .play 0,
        .playSet, .bareNote 1, .reset, .syscall 0] : List Instr).all (endsPhase Config.hardware) = true
      ∧ ([.halt, .jump 16, .ifJump 0, .ifNotJump 0, .sectionOp, .repeatOp, .ifRepeat, .ifNotRepeat,
        .setReg 1, .add 1, .sub 1, .equal 1, .lt 1, .gt 1, .ltEqual 1, .gtEqual 1] : List Instr).any
          (endsPhase Config.hardware) = false := by decide

/-! ### One dispatch call (section 2.4 of 95_test_vectors.md) -/

/-- The start states of the gate vectors: byte `3C` at offset 0. -/
def gate : State := codeAt 0 [0x3C]

theorem test_gate_G1 :
    answer (step { gate with halted := true, tickCounter := 3, waitCounter := 2, playPulse := true }) =
      some { gate with
        halted := true, tickCounter := 3, waitCounter := 2, playPulse := true, events := [.halt] } := by
  decide

theorem test_gate_G2 :
    answer (step { gate with tickCounter := 3, waitCounter := 2, playPulse := true }) =
      some { gate with tickCounter := 2, waitCounter := 2, playPulse := true } := by decide

theorem test_gate_G3 :
    answer (step { gate with waitCounter := 2, tickRate := 4, playPulse := true }) =
      some { gate with tickCounter := 4, waitCounter := 1, tickRate := 4 } := by decide

theorem test_gate_G4 :
    answer (step { gate with tickRate := 4, syscallPulse := true }) =
      some { gate with
        cursor := 1, tickCounter := 4, tickRate := 4, note := 60, playPulse := true,
        events := [.play 60] } := by decide

theorem test_gate_G5 :
    answer (step { gate with tickCounter := 1, tickRate := 4 }) = some { gate with tickRate := 4 } := by
  decide

/-- 41_control.md R121: `HALT` and then the note in the same call, in that order. -/
theorem test_halt_continues :
    answer (step (codeAt 0 [0xFF, 0x3C])) =
      some { codeAt 0 [0xFF, 0x3C] with
        halted := true, cursor := 2, note := 60, playPulse := true, events := [.halt, .play 60] } := by
  decide

/-- 40_dispatch.md R109: a jump to itself is cut after 255 fetches. -/
theorem test_self_jump_truncates :
    callFetches (at16 [0xFE, 0x10, 0x00]) = 255 ∧ callKind (at16 [0xFE, 0x10, 0x00]) = .truncated
      ∧ answer (step (at16 [0xFE, 0x10, 0x00])) = some (at16 [0xFE, 0x10, 0x00]) := by
  decide

/-- Vector M1 of section 2.5: the cursor wraps from 65535 to 0. -/
theorem test_cursor_wraps_M1 :
    (answer (step (codeAt 65535 [0x00, 0x3C]))).map (fun t => (t.cursor, t.fetch)) =
      some (0, .bareNote 60) := by decide

/-- 70_reset_and_hazards.md R230: a reset in mid-run keeps `base` and memory. -/
theorem test_reset_keeps_base :
    State.hostReset { gate with base := 7, tickRate := 2, note := 9, halted := true } =
      { gate with base := 7 } := by decide

/-! ### Witnesses: a state and operands that meet each statement's hypotheses -/

theorem witness_NotTakenJumpLandsOnHighByte :
    ((at16 [0xFD, 0x00, 0x01]).fetch = .ifJump 0x100 ∧ (at16 [0xFD, 0x00, 0x01]).accumulator = false
        ∧ ∃ t, instrStep (at16 [0xFD, 0x00, 0x01]) = .next t)
      ∧ (State.fetch { at16 [0xFC, 0xFF, 0xFF] with accumulator := true } = .ifNotJump 0xFFFF
        ∧ ∃ t, instrStep { at16 [0xFC, 0xFF, 0xFF] with accumulator := true } = .next t) :=
  ⟨⟨by decide, rfl, _, rfl⟩, by decide, _, rfl⟩

theorem witness_NotTakenJumpBelow256IsSilentPhase :
    ((at16 [0xFD, 0xFF, 0x00]).gatesOpen ∧ (at16 [0xFD, 0xFF, 0x00]).fetch = .ifJump 255
        ∧ (at16 [0xFD, 0xFF, 0x00]).accumulator = false)
      ∧ State.gatesOpen { at16 [0xFC, 0x00, 0x00] with accumulator := true }
        ∧ State.fetch { at16 [0xFC, 0x00, 0x00] with accumulator := true } = .ifNotJump 0 :=
  ⟨⟨⟨rfl, rfl, rfl⟩, by decide, rfl⟩, ⟨rfl, rfl, rfl⟩, by decide⟩

theorem witness_BareNotePlaysOpcode :
    (1 ≤ (0x01 : Byte).toNat ∧ (0x01 : Byte).toNat ≤ 0xE5)
      ∧ (1 ≤ (0xE5 : Byte).toNat ∧ (0xE5 : Byte).toNat ≤ 0xE5) ∧ (0xF6 : Byte).toNat = 0xF6 := by decide

theorem witness_UnrecognisedByteIsBareNote :
    ([0x01, 0xE5, 0xF6] : List Byte).all (fun b =>
        !(b.toNat == 0 || decide (0xE6 ≤ b.toNat ∧ b.toNat ≤ 0xF5) || decide (0xF7 ≤ b.toNat))) = true
      ∧ ([0x00, 0xE6, 0xF5, 0xF7, 0xFF] : List Byte).any (fun b =>
        !(b.toNat == 0 || decide (0xE6 ≤ b.toNat ∧ b.toNat ≤ 0xF5) || decide (0xF7 ≤ b.toNat))) =
          false := by decide

theorem witness_Imm16IsLittleEndian :
    (at16 [0xFE, 0xFF, 0xFF]).codeByte 0 = 0xFE ∧ (at16 [0xFD, 0x00, 0x80]).codeByte 0 = 0xFD
      ∧ (at16 [0xFC, 0x00, 0x00]).codeByte 0 = 0xFC ∧ (at16 [0xF7, 0x34, 0x12]).codeByte 0 = 0xF7
      ∧ (at16 [0xEC, 0x2C, 0x01]).codeByte 0 = 0xEC ∧ (at16 [0xEA, 0xE8, 0x03]).codeByte 0 = 0xEA := by
  decide

theorem witness_DecodeOfEncode :
    (Instr.jump 0xFFFF).wf = true ∧ (Instr.bareNote 0xE5).wf = true ∧ Instr.reset.wf = true := by decide

theorem witness_EncodeOfDecode :
    decodeBytes [0xFE, 0x34, 0x12, 0x3C] = .ok (.jump 0x1234, [0x3C])
      ∧ decodeBytes [0xF6] = .ok (.reset, []) := ⟨rfl, rfl⟩

theorem witness_MnemonicEmitsOneInstruction :
    (AsmCall.op8 .play (.int (-1))).instr = some (.play 1) ∧ (AsmCall.op0 .reset).instr = some .reset
      ∧ (AsmCall.op16 .jump (.int 65536)).instr = some (.jump 0)
      ∧ ((1 : Int) ≤ 1 ∧ (1 : Int) ≤ 229) ∧ ((1 : Int) ≤ 229 ∧ (229 : Int) ≤ 229) := by decide

/-- An empty buffer, and one that fills every location. -/
theorem witness_AssembledBytesAreInMemory :
    System.initial.bufferWf ∧ System.bufferWf { System.initial with bufLen := 65536, beyond := [1] } :=
  ⟨⟨by decide, .inl rfl⟩, by decide, .inr rfl⟩

/-- A memory that differs outside the instruction's bytes. -/
theorem witness_InstructionReadsOnlyItsBytes :
    (∀ k, k < formatLength (opcodeFormat ((at16 [0xF5, 0x07]).codeByte 0)) →
        Memory.read [(5, 1), (16, 0xF5), (17, 7)] ((at16 [0xF5, 0x07]).codeAddr k)
          = (at16 [0xF5, 0x07]).codeByte k)
      ∧ ∃ t, instrStep (at16 [0xF5, 0x07]) = .next t :=
  ⟨by decide, _, rfl⟩

theorem witness_CanonicalMemoryIsItsReads :
    Memory.wf [(5, 1), (65535, 2)] = true ∧ ∀ a : Word,
      Memory.read [(5, 1), (65535, 2)] a = Memory.read [(5, 1), (65535, 2)] a :=
  ⟨by decide, fun _ => rfl⟩

theorem witness_NoStepWritesMemory :
    (∃ t, exec (.setReg 7) gate = .next t) ∧ ∃ t, step gate = .next t :=
  ⟨⟨_, rfl⟩, _, rfl⟩

theorem witness_HaltedCallOnlyEmitsHalt : ({ gate with halted := true } : State).halted = true := rfl

theorem witness_ThrottledCallOnlyDecrements :
    (({ gate with tickCounter := 1 } : State).halted = false
        ∧ 0 < (({ gate with tickCounter := 1 } : State).tickCounter).toNat)
      ∧ 0 < (({ gate with tickCounter := 65535 } : State).tickCounter).toNat := by decide

theorem witness_WaitingPhaseReloadsClearsAndCountsDown :
    ({ gate with waitCounter := 1 } : State).halted = false
      ∧ ({ gate with waitCounter := 1 } : State).tickCounter = 0
      ∧ 0 < (({ gate with waitCounter := 1 } : State).waitCounter).toNat
      ∧ 0 < (({ gate with waitCounter := 65535 } : State).waitCounter).toNat := by decide

/-- One that ends the phase and one that does not. -/
theorem witness_StepRunsDecodedInstruction :
    (gate.gatesOpen ∧ decodeBytes [gate.codeByte 0, gate.codeByte 1, gate.codeByte 2]
        = .ok (.bareNote 60, [0, 0]))
      ∧ (at16 [0xFE, 0x10, 0x00]).gatesOpen
      ∧ decodeBytes [(at16 [0xFE, 0x10, 0x00]).codeByte 0, (at16 [0xFE, 0x10, 0x00]).codeByte 1,
          (at16 [0xFE, 0x10, 0x00]).codeByte 2] = .ok (.jump 16, []) :=
  ⟨⟨⟨rfl, rfl, rfl⟩, rfl⟩, ⟨rfl, rfl, rfl⟩, rfl⟩

theorem witness_InstructionAfterHaltRuns :
    (codeAt 0 [0xFF, 0x3C]).gatesOpen ∧ (codeAt 0 [0xFF, 0x3C]).fetch = .halt
      ∧ ∃ t u, exec .halt (codeAt 0 [0xFF, 0x3C]).phaseStart = .next t
        ∧ endsPhase Config.hardware t.fetch = true ∧ exec t.fetch t = .next u :=
  ⟨⟨rfl, rfl, rfl⟩, by decide, _, _, rfl, by decide, rfl⟩

theorem witness_AtMost255Fetches :
    callKind (at16 [0xFE, 0x10, 0x00]) = .truncated ∧ gate.gatesOpen
      ∧ ¬ State.gatesOpen { gate with waitCounter := 1 } :=
  ⟨by decide, ⟨rfl, rfl, rfl⟩, fun h => absurd h.2.2 (by decide)⟩

/-- Two jumps to each other, at offsets 16 and 19. -/
theorem witness_JumpCycleIsTruncated :
    (at16 [0xFE, 0x13, 0x00, 0xFE, 0x10, 0x00]).gatesOpen
      ∧ (fun c : Word => c = 16 ∨ c = 19) (at16 [0xFE, 0x13, 0x00, 0xFE, 0x10, 0x00]).cursor
      ∧ ∀ c : Word, (c = 16 ∨ c = 19) → ∃ c' : Word, (c' = 16 ∨ c' = 19)
        ∧ ((at16 [0xFE, 0x13, 0x00, 0xFE, 0x10, 0x00]).jumpTo c).fetch = .jump c' := by
  refine ⟨⟨rfl, rfl, rfl⟩, .inl rfl, fun c h => ?_⟩
  rcases h with rfl | rfl
  · exact ⟨19, .inr rfl, by decide⟩
  · exact ⟨16, .inl rfl, by decide⟩

/-- No iteration, and one continuing iteration; a cut call that leaves the machine running; and one with
a `HALT` in it, as in vector B3. -/
theorem witness_TruncationResumes :
    (loopEnds 0 gate = false ∧ phaseLoop exec (endsPhase Config.hardware) 0 gate = .next gate)
      ∧ (loopEnds 1 (at16 [0xF5, 0x07]) = false
        ∧ ∃ t, phaseLoop exec (endsPhase Config.hardware) 1 (at16 [0xF5, 0x07]) = .next t)
      ∧ (callKind { at16 [0xFE, 0x10, 0x00] with tickRate := 2 } = .truncated
        ∧ (answer (step { at16 [0xFE, 0x10, 0x00] with tickRate := 2 })).map (·.halted) = some false)
      ∧ callKind (codeAt 0 [0xFF, 0xFE, 0x01, 0x00]) = .truncated
      ∧ (answer (step (codeAt 0 [0xFF, 0xFE, 0x01, 0x00]))).map (·.halted) = some true :=
  ⟨⟨rfl, rfl⟩, ⟨by decide, _, rfl⟩, ⟨by decide, by decide⟩, by decide, by decide⟩

/-- The longest event list of section 2.4's kind: a `Halt` and a note. -/
theorem witness_EventsOfACall :
    (answer (step (codeAt 0 [0xFF, 0x3C]))).map (·.events) = some [.halt, .play 60] := by
  decide

/-- notes/assumptions/23.md, by 40_dispatch.md R108 and R109: 254 `HALT`s and then a note hand over 255
events. -/
theorem test_halts_and_note_give_255_events :
    (answer (step { State.reset with
        pmem := (List.range 254).map (fun k => (k, 0xFF#8)) ++ [(254, 0x3C#8)] })).map
      (fun t => (t.events.length, t.events.getLast?)) = some (255, some (.play 60)) := by
  decide +kernel

/-- Each kind of event occurs. -/
theorem witness_EventsAreObservable :
    (answer (step (codeAt 0 [0xFF, 0x00]))).map (·.events) = some [.halt]
      ∧ (answer (step (codeAt 0 [0xF7, 0x34, 0x12]))).map (·.events) = some [.syscall 0x1234]
      ∧ (answer (step (codeAt 0 [0xE9, 0x07]))).map (·.events) = some [.instrument 7]
      ∧ (answer (step gate)).map (·.events) = some [.play 60] := by decide

/-- Each kind of call occurs. -/
theorem witness_PulsesByKindOfCall :
    callKind { gate with halted := true } = .halted
      ∧ callKind { gate with tickCounter := 1 } = .throttled
      ∧ callKind { gate with waitCounter := 1 } = .waiting
      ∧ callKind (at16 [0xFE, 0x10, 0x00]) = .truncated ∧ callKind gate = .ended := by decide

/-- An active phase at rate 2 that does not halt; `k` may be 0, 1 or 2. -/
theorem witness_RateLaw :
    ({ gate with tickRate := 2 } : State).halted = false
      ∧ ({ gate with tickRate := 2 } : State).tickCounter = 0
      ∧ (answer (step { gate with tickRate := 2 })).map (·.halted) = some false
      ∧ 2 ≤ (({ gate with tickRate := 2 } : State).tickRate).toNat := by decide

theorem witness_NewRateIsLateByOnePhase :
    ((codeAt 0 [0xEC, 0x2C, 0x01]).gatesOpen ∧ (codeAt 0 [0xEC, 0x2C, 0x01]).fetch = .ticks16 300)
      ∧ (codeAt 0 [0xED, 0x02]).gatesOpen ∧ (codeAt 0 [0xED, 0x02]).fetch = .ticks 2 :=
  ⟨⟨⟨rfl, rfl, rfl⟩, by decide⟩, ⟨rfl, rfl, rfl⟩, by decide⟩

theorem witness_PauseLaw :
    ((codeAt 0 [0xEB, 0x00]).gatesOpen ∧ (codeAt 0 [0xEB, 0x00]).fetch = .wait 0)
      ∧ (codeAt 0 [0xEA, 0xE8, 0x03]).gatesOpen
      ∧ (codeAt 0 [0xEA, 0xE8, 0x03]).fetch = .wait16 1000 :=
  ⟨⟨⟨rfl, rfl, rfl⟩, by decide⟩, ⟨rfl, rfl, rfl⟩, by decide⟩

theorem witness_StepKeepsInvariant : gate.inv ∧ ∃ t, step gate = .next t :=
  ⟨⟨by decide, by decide⟩, _, rfl⟩

theorem witness_BaseFixedAndHaltedSticky :
    (∃ t, step { gate with halted := true } = .next t)
      ∧ ∃ t, exec .halt { gate with halted := true } = .next t :=
  ⟨⟨_, rfl⟩, _, rfl⟩

/-- Two Tracks on one memory, at offsets 0 and 1. -/
def duet : System where
  pmem := [(0, 0x3C), (1, 0xFF)]
  bufLen := 2
  beyond := []
  tracks := [Track.construct 0, Track.construct 1]

theorem witness_RequestKeepsSystemInvariant :
    duet.inv ∧ ∃ z p, duet.request (.dispatch 0) = .next (z, p) := by
  refine ⟨⟨by decide, ⟨by decide, .inl rfl⟩, fun t h => ?_⟩, _, _, rfl⟩
  simp [duet] at h
  rcases h with rfl | rfl <;> decide

theorem witness_RequestTouchesOnlyWhatItNames :
    (∃ z p, duet.request (.dispatch 0) = .next (z, p)) ∧ (∃ z p, duet.request (.reset 1) = .next (z, p))
      ∧ (∃ z p, duet.request (.observe 1) = .next (z, p))
      ∧ (∃ z p, duet.request (.construct 65535) = .next (z, p))
      ∧ (∃ z p, duet.request (.writeByte 65535 1) = .next (z, p))
      ∧ (∃ z p, duet.request (.assemble (.short (.int 258))) = .next (z, p))
      ∧ (∃ z p, duet.request .clearBuffer = .next (z, p))
      ∧ (∃ z p, duet.request .bufferLength = .next (z, p))
      ∧ ∃ z p, duet.request .inspectBuffer = .next (z, p) :=
  ⟨⟨_, _, rfl⟩, ⟨_, _, rfl⟩, ⟨_, _, rfl⟩, ⟨_, _, rfl⟩, ⟨_, _, rfl⟩, ⟨_, _, rfl⟩, ⟨_, _, rfl⟩,
    ⟨_, _, rfl⟩, _, _, rfl⟩

/-- 30_encoding.md R88, 20_memory.md R50: the buffer is program memory, so a host write shows in it. -/
theorem test_buffer_is_program_memory :
    (duet.assemble (.short (.int 258))).contents = [0x3C, 0xFF, 0x02, 0x01]
      ∧ (duet.writeByte 1 0x40).contents = [0x3C, 0x40] ∧ (duet.writeByte 2 0x40).contents = [0x3C, 0xFF]
      ∧ duet.clearBuffer.contents = [] := by decide

theorem witness_TracksDoNotInteract :
    (0 : Nat) ≠ 1 ∧ (∃ z p, duet.dispatch 0 = .next (z, p)) ∧ ∃ z p, duet.dispatch 1 = .next (z, p) :=
  ⟨by decide, ⟨_, _, rfl⟩, _, _, rfl⟩

/-- At the ends of 0 to 255; and a register that is no payload, on either side. -/
theorem witness_RegArithModesAgreeWithoutOverflow :
    noOverflow (.add 1) 254 ∧ noOverflow (.sub 1) 1 ∧ ¬ noOverflow (.add 1) 255
      ∧ execVariant Config.hardware .playSet ⟨gate, 256⟩ = .refused .registerOutOfRange
      ∧ execVariant Config.hardware .instrumentSet ⟨gate, -1⟩ = .refused .registerOutOfRange
      ∧ ∃ w, execVariant Config.hardware .playSet ⟨gate, 255⟩ = .next w :=
  ⟨by unfold noOverflow; decide, by unfold noOverflow; decide, by unfold noOverflow; decide, rfl, rfl,
    _, rfl⟩

/-- Both disjuncts: construction, and a reset. -/
theorem witness_FirstCallFetchesAtBase :
    (Track.construct 65535).over [(65535, 0x3C)] = (Track.construct 65535).over [(65535, 0x3C)]
      ∧ ({ gate with base := 7, tickRate := 2, halted := true } : State).base = 7 ∧ gate.pmem = [(0, 0x3C)]
      ∧ State.hostReset { gate with base := 7, tickRate := 2, halted := true } =
        (Track.construct 7).over [(0, 0x3C)] := by decide

/-- Whether a variant's call is refused, and why. -/
def refusal (o : Host.Outcome Variant Fault Refusal) : Option Refusal :=
  match o with
  | .refused r => some r
  | .next _ => none
  | .fault _ => none

/-- This width with neither refusal, and a narrower one with a limit, over a note inside both. -/
theorem witness_HardwareIsTheVariantAtItsParameters :
    ((16 : Nat) = 16 ∨ 16 ≤ 16 ∧ false = true)
      ∧ (∃ v, variantStep { Config.hardware with paddrBits := 16, wrapRefused := false, fetchLimit := none }
        (Variant.ofState gate) = .next v)
      ∧ ((8 : Nat) = 16 ∨ 8 ≤ 16 ∧ true = true)
      ∧ ∃ v, variantStep { Config.hardware with paddrBits := 8, wrapRefused := true, fetchLimit := some 1 }
        (Variant.ofState gate) = .next v :=
  ⟨by decide, ⟨_, rfl⟩, by decide, _, rfl⟩

/-- 93_implementation_defined.md U11: at the last address a one-byte instruction is fetched and a longer
one wraps, which the conservative reading refuses; a width of 8 bits wraps at 256. -/
theorem test_address_width :
    refusal (variantInstrStep { Config.hardware with wrapRefused := true }
        (Variant.ofState (codeAt 65535 [0x3C]))) = none
      ∧ refusal (variantInstrStep { Config.hardware with wrapRefused := true }
        (Variant.ofState (codeAt 65535 [0xF5, 0x07]))) = some .fetchWraps
      ∧ fetchBy { Config.hardware with paddrBits := 8 } { codeAt 0 [0x3C] with cursor := 256 } =
        .bareNote 60 := by decide

/-- notes/assumptions/22.md: a not-taken `IFJUMP` whose operand passes the limit is refused. -/
theorem test_limit_counts_operand :
    refusal (variantInstrStep { Config.hardware with fetchLimit := some 17 }
      (Variant.ofState (at16 [0xFD, 0x00, 0x01]))) = some .fetchBeyondImage := by decide

end Sys2Proof.Tests
end

section
/-! What a dispatch call keeps of the Track and of memory (10_state.md R42), and where the two values of
`REG_ARITH` agree (R22). -/

namespace Sys2Proof.Machine

/-! ### What no call and no instruction changes -/

/-- The instruction loop leaves `base` and program memory alone, since each instruction does. -/
theorem phaseLoop_leaves {ends : Instr → Bool} {n : Nat} {s t : State}
    (h : phaseLoop exec ends n s = .next t) : t.base = s.base ∧ t.pmem = s.pmem := by
  have hkeep : ∀ {i u w}, (u.base = s.base ∧ u.pmem = s.pmem) → exec i u = .next w →
      w.base = s.base ∧ w.pmem = s.pmem := by
    rintro i u w ⟨hb, hm⟩ hx
    obtain ⟨hb', -, hm'⟩ := exec_leaves hx
    exact ⟨hb'.trans hb, hm'.trans hm⟩
  exact phaseLoop_induct (Q := fun u => u.base = s.base ∧ u.pmem = s.pmem)
    (fun _ _ _ hu _ hx => hkeep hu hx) (fun _ _ _ hu _ hx => hkeep hu hx) (fun _ hu => hu)
    n s t ⟨rfl, rfl⟩ h

/-- A dispatch call leaves `base` (10_state.md R30) and program memory (20_memory.md R57) alone. -/
theorem step_leaves {s t : State} (h : step s = .next t) : t.base = s.base ∧ t.pmem = s.pmem := by
  obtain ⟨-, rfl⟩ | ⟨-, -, rfl⟩ | ⟨-, -, -, rfl⟩ | ⟨-, hl⟩ := dispatchBy_cases h
  · simp
  · simp
  · simp
  · simpa using phaseLoop_leaves hl

/-- A call that starts halted hands over one `Halt` and changes no field of the Track (R28). -/
theorem step_halted_toTrack {s t : State} (hh : s.halted = true) (h : step s = .next t) :
    t.toTrack = s.toTrack := by
  rw [step_halted hh] at h
  cases h
  rfl

/-- No instruction clears `halted` (10_state.md R28). -/
theorem exec_keeps_halted {i : Instr} {s t : State} (h : exec i s = .next t)
    (hh : s.halted = true) : t.halted = true := by
  cases hi : endsPhase Config.hardware i with
  | false =>
    obtain ⟨-, -, ⟨ht, -⟩ | ⟨-, ht, -⟩⟩ := exec_continuing hi h
    · exact ht.trans hh
    · exact ht
  | true => exact (exec_ending hi h).1.trans hh

/-! ### At most one pulse -/

/-- No pulse flag is true: what step 4 of a dispatch call leaves (40_dispatch.md R104). -/
def Track.noPulse (t : Track) : Prop :=
  t.syscallPulse = false ∧ t.instrumentPulse = false ∧ t.playPulse = false

theorem State.phaseStart_noPulse (s : State) : s.phaseStart.noPulse := ⟨rfl, rfl, rfl⟩

theorem Track.onePulse_of_noPulse {t : Track} (h : t.noPulse) : t.onePulse = true := by
  obtain ⟨hs, hi, hp⟩ := h
  simp [Track.onePulse, hs, hi, hp]

/-- A continuing instruction sets no pulse. -/
theorem exec_continuing_noPulse {i : Instr} {s t : State} (hi : endsPhase Config.hardware i = false)
    (h : exec i s = .next t) (hs : s.noPulse) : t.noPulse := by
  obtain ⟨⟨hsys, hins, hply⟩, -, -⟩ := exec_continuing hi h
  simpa only [Track.noPulse, hsys, hins, hply] using hs

/-- A phase-ending instruction, run where no pulse is true, sets at most one. -/
theorem Signals.onePulse {s t : State} (h : Signals s t) (hs : s.noPulse) : t.onePulse = true := by
  obtain ⟨hsys, hins, hply⟩ := hs
  cases h with
  | silent _ sys ins ply => simp [Track.onePulse, sys, ins, ply, hsys, hins, hply]
  | syscall _ sys ins ply => simp [Track.onePulse, ins, ply, hins, hply]
  | instrument _ sys ins ply => simp [Track.onePulse, sys, ply, hsys, hply]
  | play _ sys ins ply => simp [Track.onePulse, sys, ins, hsys, hins]

/-- Only the instruction that ends the phase can set a pulse, so the loop sets at most one. -/
theorem phaseLoop_onePulse {n : Nat} {s t : State} (hs : s.noPulse)
    (h : phaseLoop exec (endsPhase Config.hardware) n s = .next t) : t.onePulse = true :=
  phaseLoop_induct (Q := fun u => u.noPulse) (P := fun u => u.onePulse = true)
    (fun _ _ _ hu hi hx => exec_continuing_noPulse hi hx hu)
    (fun _ _ _ hu hi hx => (exec_ending hi hx).2.onePulse hu)
    (fun _ hu => Track.onePulse_of_noPulse hu) n s t hs h

/-- A halted or throttled call leaves the pulses as they are; an active phase clears them first. -/
theorem step_onePulse {s t : State} (hs : s.onePulse = true) (h : step s = .next t) :
    t.onePulse = true := by
  obtain ⟨-, rfl⟩ | ⟨-, -, rfl⟩ | ⟨-, -, -, rfl⟩ | ⟨-, hl⟩ := dispatchBy_cases h
  · exact hs
  · exact hs
  · exact Track.onePulse_of_noPulse s.phaseStart_noPulse
  · exact phaseLoop_onePulse s.phaseStart_noPulse hl

/-! ### The register as an integer -/

/-- Both values of `REG_ARITH` leave an exact result in 0 to 255 as it is (10_state.md R22). -/
theorem reduceBy_of_inRange {x : Int} (h0 : 0 ≤ x) (h1 : x < 256) (m : RegArith) :
    reduceBy m x = x := by
  cases m with
  | wrap8 => exact Int.emod_eq_of_lt h0 h1
  | unmasked => rfl

/-- The register is no 8-bit payload exactly outside 0 to 255 (43_register.md R160). -/
theorem Variant.payload_eq_none_iff (v : Variant) : v.payload = none ↔ v.wide < 0 ∨ 255 < v.wide := by
  simp only [Variant.payload, ite_eq_right_iff, reduceCtorEq, imp_false]
  omega

/-- `INSTRUMENTSET` is refused exactly where the register is no payload. -/
theorem execVariant_instrumentSet_refused_iff (c : Config) (v : Variant) :
    execVariant c .instrumentSet v = .refused .registerOutOfRange ↔ v.payload = none := by
  cases hp : v.payload <;> simp [execVariant, hp]

/-- `PLAYSET` is refused exactly where the register is no payload. -/
theorem execVariant_playSet_refused_iff (c : Config) (v : Variant) :
    execVariant c .playSet v = .refused .registerOutOfRange ↔ v.payload = none := by
  cases hp : v.payload <;> simp [execVariant, hp]

/-- Only `ADD` and `SUB` look at `REG_ARITH`, and they reduce the exact result. -/
theorem execVariant_regArith_of_noOverflow (c : Config) (i : Instr) (v : Variant) (m m' : RegArith)
    (h : noOverflow i v.wide) :
    execVariant { c with regArith := m } i v = execVariant { c with regArith := m' } i v := by
  obtain ⟨h0, h1⟩ := h
  have hr : reduceBy m (exactRegister i v.wide) = reduceBy m' (exactRegister i v.wide) :=
    (reduceBy_of_inRange h0 h1 m).trans (reduceBy_of_inRange h0 h1 m').symm
  cases i with
  | add imm => exact congrArg (fun x => Host.Outcome.next (v.loadRegister x)) hr
  | sub imm => exact congrArg (fun x => Host.Outcome.next (v.loadRegister x)) hr
  | _ => rfl

/-! ### The obligations -/

/-- Settles O51: memory is not written, and the pulses are cleared before the one instruction that may
set one. -/
theorem stepKeepsInvariant : Obligations.StepKeepsInvariant := by
  rintro s t ⟨hpulse, hmem⟩ h
  exact ⟨step_onePulse hpulse h, (step_leaves h).2 ▸ hmem⟩

/-- Settles O53, from what a call and what an instruction leave alone. -/
theorem baseFixedAndHaltedSticky : Obligations.BaseFixedAndHaltedSticky := by
  refine ⟨fun s t h => ⟨(step_leaves h).1, fun hh => step_halted_toTrack hh h⟩, fun i s t h => ?_⟩
  obtain ⟨hb, ht, -⟩ := exec_leaves h
  exact ⟨hb, ht, exec_keeps_halted h⟩

/-- Settles O60, from the reduction of an exact result in range and from when the register is a
payload. -/
theorem regArithModesAgreeWithoutOverflow : Obligations.RegArithModesAgreeWithoutOverflow := by
  refine ⟨fun c i v h => execVariant_regArith_of_noOverflow c i v _ _ h, ?_⟩
  rintro c v i (rfl | rfl)
  · exact (execVariant_instrumentSet_refused_iff c v).trans v.payload_eq_none_iff
  · exact (execVariant_playSet_refused_iff c v).trans v.payload_eq_none_iff

/-- Settles O52: every pulse is false at reset (decision D2) and memory lists nothing. -/
theorem invariantAtReset : Obligations.InvariantAtReset :=
  ⟨Track.onePulse_of_noPulse ⟨rfl, rfl, rfl⟩, State.reset_pmem_wf⟩

end Sys2Proof.Machine
end

section
/-! Program memory (20_memory.md): what is read after a write, what a fetch depends on, and the
assembler's buffer as a part of program memory. -/

namespace Sys2Proof

/-- The decoder looks at an operand byte only where the opcode's format has one (30_encoding.md R70). -/
theorem decode_congr {b0 b1 b2 c1 c2 : Byte}
    (h1 : 1 < formatLength (opcodeFormat b0) → c1 = b1)
    (h2 : 2 < formatLength (opcodeFormat b0) → c2 = b2) : decode b0 c1 c2 = decode b0 b1 b2 := by
  cases hf : opcodeFormat b0 with
  | f0 => exact decode_f0 hf c1 c2 b1 b2
  | f8 =>
    rw [h1 (by simp [hf, formatLength])]
    exact decode_f8 hf b1 c2 b2
  | f16 => rw [h1 (by simp [hf, formatLength]), h2 (by simp [hf, formatLength])]

end Sys2Proof

namespace Sys2Proof.Machine

/-! ### Reads and writes -/

/-- What is read after a write (20_memory.md R54). -/
theorem Memory.read_write (m : Memory) (a a' : Word) (b : Byte) :
    (m.write a b).read a' = if a' = a then b else m.read a' := by
  simp only [Memory.read, Memory.lookup_write, BitVec.toNat_inj]

/-! ### The canonical form -/

theorem Memory.wfFrom_cons_iff {lo k : Nat} {b : Byte} {m : Memory} :
    Memory.wfFrom lo ((k, b) :: m) = true ↔
      lo ≤ k ∧ k < Memory.size ∧ b ≠ Memory.unlisted ∧ Memory.wfFrom (k + 1) m = true := by
  simp [Memory.wfFrom, and_assoc]

@[simp] theorem Memory.lookup_cons_self (k : Nat) (b : Byte) (m : Memory) :
    Memory.lookup k ((k, b) :: m) = b := by
  simp [Memory.lookup]

theorem Memory.lookup_cons_of_ne {j k : Nat} (h : j ≠ k) (b : Byte) (m : Memory) :
    Memory.lookup k ((j, b) :: m) = Memory.lookup k m := by
  simp [Memory.lookup, h]

/-- A canonical memory in which some address reads as listed has a first cell, at or below it. -/
theorem Memory.exists_cons_of_lookup_ne {lo k : Nat} {m : Memory} (hm : Memory.wfFrom lo m = true)
    (hk : Memory.lookup k m ≠ Memory.unlisted) : ∃ j b m', m = (j, b) :: m' ∧ j ≤ k := by
  cases m with
  | nil => exact absurd rfl hk
  | cons c m' =>
    obtain ⟨j, b⟩ := c
    obtain ⟨-, hsize, hb, htail⟩ := Memory.wfFrom_cons_iff.mp hm
    refine ⟨j, b, m', rfl, Nat.le_of_not_lt fun hlt => hk ?_⟩
    exact Memory.lookup_below _ j k (Memory.wfFrom_cons_iff.mpr ⟨Nat.le_refl j, hsize, hb, htail⟩) hlt

/-- Canonical memories that agree at every location have the same cells: the first cell of each is at
the least address that does not read as unlisted. -/
theorem Memory.eq_of_lookup_eq {m m' : Memory} {lo : Nat} (hm : Memory.wfFrom lo m = true)
    (hm' : Memory.wfFrom lo m' = true)
    (h : ∀ k, k < Memory.size → Memory.lookup k m = Memory.lookup k m') : m = m' := by
  induction m generalizing lo m' with
  | nil =>
    cases m' with
    | nil => rfl
    | cons c' r' =>
      obtain ⟨-, hsize, hb, -⟩ := Memory.wfFrom_cons_iff.mp hm'
      exact absurd ((h c'.1 hsize).trans (Memory.lookup_cons_self _ _ _)).symm hb
  | cons c r ih =>
    obtain ⟨j, b⟩ := c
    obtain ⟨-, hsize, hb, hr⟩ := Memory.wfFrom_cons_iff.mp hm
    obtain ⟨j', b', r', rfl, hle⟩ := Memory.exists_cons_of_lookup_ne hm' (k := j)
      (by rwa [← h j hsize, Memory.lookup_cons_self])
    obtain ⟨-, hsize', hb', hr'⟩ := Memory.wfFrom_cons_iff.mp hm'
    obtain ⟨_, _, _, hcons, hge⟩ := Memory.exists_cons_of_lookup_ne hm (k := j')
      (by rwa [h j' hsize', Memory.lookup_cons_self])
    cases hcons
    obtain rfl : j = j' := Nat.le_antisymm hge hle
    have hbb : b = b' := by simpa using h j hsize
    have htail : r = r' := ih hr hr' fun k hk => by
      by_cases hjk : j = k
      · subst hjk
        rw [Memory.lookup_below r _ _ hr (Nat.lt_succ_self j),
          Memory.lookup_below r' _ _ hr' (Nat.lt_succ_self j)]
      · simpa only [Memory.lookup_cons_of_ne hjk] using h k hk
    rw [hbb, htail]

/-! ### Steps and program memory -/

theorem sameMemory_of_pmem_eq {s t : State} (h : t.pmem = s.pmem) : sameMemory s t :=
  fun a => congrArg (Memory.read · a) h

theorem State.branch_withPmem (s : State) (m : Memory) (taken : Bool) (target skip : Word) :
    State.branch { s with pmem := m } taken target skip
      = { s.branch taken target skip with pmem := m } := by
  cases taken <;> rfl

/-- No meaning of an instruction reads program memory: the instruction is what was fetched
(20_memory.md R57). -/
theorem exec_withPmem {i : Instr} {s t : State} (m : Memory) (h : exec i s = .next t) :
    exec i { s with pmem := m } = .next { t with pmem := m } := by
  cases i <;> cases h
  case ifJump | ifNotJump | ifRepeat | ifNotRepeat =>
    exact congrArg Host.Outcome.next (State.branch_withPmem _ _ _ _ _)
  all_goals rfl

/-- A memory with the same bytes where the instruction stands gives the same fetch
(20_memory.md R57, R58). -/
theorem State.fetch_withPmem {s : State} {m : Memory}
    (h : ∀ k, k < formatLength (opcodeFormat (s.codeByte 0)) → m.read (s.codeAddr k) = s.codeByte k) :
    State.fetch { s with pmem := m } = s.fetch := by
  have h0 : m.read (s.codeAddr 0) = s.codeByte 0 :=
    h 0 (by cases opcodeFormat (s.codeByte 0) <;> decide)
  calc State.fetch { s with pmem := m }
      = decode (m.read (s.codeAddr 0)) (m.read (s.codeAddr 1)) (m.read (s.codeAddr 2)) := rfl
    _ = decode (s.codeByte 0) (m.read (s.codeAddr 1)) (m.read (s.codeAddr 2)) := by rw [h0]
    _ = s.fetch := decode_congr (h 1) (h 2)

/-- The fetch address as a number (20_memory.md R52, R53). -/
theorem State.codeAddr_toNat (s : State) (k : Nat) :
    (s.codeAddr k).toNat = (s.base.toNat + s.cursor.toNat + k) % 65536 :=
  (codeAddrBy_hardware s k).symm

/-! ### The assembler's buffer -/

/-- The buffer at an index that has a location: program memory below its length, nothing from there
on (20_memory.md R50, R51). -/
theorem System.contents_at_location {y : System} (hy : y.bufferWf) {k : Nat} (hk : k < Memory.size) :
    y.contents[k]? = if k < y.bufLen then some (y.pmem.read (BitVec.ofNat 16 k)) else none := by
  split
  · next hlt => exact System.contents_below hlt
  · next hge =>
    have hbeyond : y.beyond = [] := hy.2.resolve_right (by omega)
    rw [System.contents_above (Nat.le_of_not_lt hge), hbeyond, List.getElem?_nil]

theorem System.mirrored_of_bufferWf {y : System} (hy : y.bufferWf) : y.mirrored := by
  intro k b hb hk
  rw [System.contents_at_location hy hk, Option.ite_none_right_eq_some] at hb
  exact Option.some.inj hb.2

/-- A host write shows in the buffer where the buffer has that index, and only there. -/
theorem System.contents_writeByte {y : System} (hy : y.bufferWf) (a : Word) (b : Byte) :
    (y.writeByte a b).contents = y.contents.set a.toNat b := by
  have hyw : (y.writeByte a b).bufferWf := hy
  have ha : a.toNat < Memory.size := Memory.toNat_lt_size a
  refine List.ext_getElem? fun k => ?_
  by_cases hk : k < Memory.size
  · have hread : (y.writeByte a b).pmem.read (BitVec.ofNat 16 k)
        = if k = a.toNat then b else y.pmem.read (BitVec.ofNat 16 k) := by
      have h := y.pmem.read_write_ofNat b ha hk
      rwa [BitVec.ofNat_toNat, BitVec.setWidth_eq] at h
    have hlen : (y.writeByte a b).bufLen = y.bufLen := rfl
    rw [System.contents_at_location hyw hk, hread, hlen, List.getElem?_set',
      System.contents_at_location hy hk]
    by_cases hka : a.toNat = k
    · rw [if_pos hka, if_pos hka.symm]
      split <;> rfl
    · rw [if_neg hka, if_neg (Ne.symm hka)]
  · have hge : y.bufLen ≤ k := hy.1.trans (Nat.le_of_not_lt hk)
    rw [List.getElem?_set_ne (by omega), System.contents_above hge]
    exact System.contents_above hge

/-! ### The obligations -/

/-- Settles O30, index by index: below 65536 the buffer is program memory, and appending is
`System.appendBytes_spec`. -/
theorem assembledBytesAreInMemory : Obligations.AssembledBytesAreInMemory :=
  fun _ hy => ⟨System.mirrored_of_bufferWf hy, fun c => System.appendBytes_spec c.bytes hy,
    System.contents_writeByte hy⟩

/-- Settles O32: the fetch is the same, and the fetched instruction does not read memory. -/
theorem instructionReadsOnlyItsBytes : Obligations.InstructionReadsOnlyItsBytes := by
  intro s t m hm h
  rw [instrStep, State.fetch_withPmem hm]
  exact exec_withPmem m h

/-- Settles O33. -/
theorem readAfterWrite : Obligations.ReadAfterWrite := Memory.read_write

/-- Settles O34: every location is the number of a 16-bit address, so equal reads are equal lookups. -/
theorem canonicalMemoryIsItsReads : Obligations.CanonicalMemoryIsItsReads := by
  intro m m' hm hm' h
  refine Memory.eq_of_lookup_eq hm hm' fun k hk => ?_
  have hk' : (BitVec.ofNat 16 k).toNat = k := Nat.mod_eq_of_lt hk
  simpa only [Memory.read, hk'] using h (BitVec.ofNat 16 k)

/-- Settles O35, from what an instruction and what a call leave alone. -/
theorem noStepWritesMemory : Obligations.NoStepWritesMemory := by
  refine ⟨fun i s t h => ?_, fun s t h => ?_, fun s => sameMemory_of_pmem_eq rfl⟩
  · obtain ⟨-, -, hm⟩ := exec_leaves h
    exact sameMemory_of_pmem_eq hm
  · obtain ⟨-, hm⟩ := step_leaves h
    exact ⟨hm, sameMemory_of_pmem_eq hm⟩

/-- Settles O31: the address is a sum of 16-bit words, and the fetch is by definition the decoding of
the three bytes there. -/
theorem fetchReadsThreeWrappedAddresses : Obligations.FetchReadsThreeWrappedAddresses :=
  fun s => ⟨s.codeAddr_toNat, rfl⟩

end Sys2Proof.Machine
end

section
/-! Encoding (30_encoding.md): the opcode map and the encoder are inverse on three bytes, so the byte
decoder and the encoder are; then the 16-bit operand in memory and the assembler's mnemonics. -/

namespace Sys2Proof

/-! ### The opcode map and the encoder -/

theorem isBareNoteByte_iff (b : Byte) :
    isBareNoteByte b = true ↔ 1 ≤ b.toNat ∧ b.toNat ≤ 0xE5 := by
  simp [isBareNoteByte, BitVec.le_def]

/-- The encoding of what three bytes decode to is those of them that the opcode's format has
(30_encoding.md R70, R75). -/
theorem encode_decode (b0 b1 b2 : Byte) :
    encode (decode b0 b1 b2) = [b0, b1, b2].take (formatLength (opcodeFormat b0)) := by
  rw [← instrFormat_decode b0 b1 b2]
  unfold decode
  split <;> simp [encode, bytesF16, instrFormat, formatLength]

/-- An instruction's encoding starts with the opcode byte it was decoded from. -/
theorem encode_decode_head (b0 b1 b2 : Byte) : (encode (decode b0 b1 b2)).head? = some b0 := by
  rw [encode_decode]
  cases opcodeFormat b0 <;> rfl

/-- What the opcode map answers is well formed: a byte with no entry of its own is in 0x01 to 0xE5. -/
theorem wf_decode (b0 b1 b2 : Byte) : (decode b0 b1 b2).wf = true := by
  unfold decode
  split
  case h_28 =>
    rw [Instr.wf, isBareNoteByte_iff]
    simp only [imp_false] at *
    bv_omega
  all_goals rfl

/-- A bare note's byte has no entry of its own in the opcode map (30_encoding.md R75, R77). -/
theorem decode_of_isBareNoteByte {b0 : Byte} (h : isBareNoteByte b0 = true) (b1 b2 : Byte) :
    decode b0 b1 b2 = .bareNote b0 := by
  unfold decode
  split
  case h_28 => rfl
  all_goals exact absurd h (by decide)

/-- A well-formed instruction is what the bytes of its encoding decode to, an absent operand byte
counting as 0. -/
theorem decode_encode {i : Instr} (h : i.wf = true) :
    decode ((encode i).getD 0 0) ((encode i).getD 1 0) ((encode i).getD 2 0) = i := by
  cases i with
  | bareNote n => exact decode_of_isBareNoteByte h _ _
  | wait16 w | ticks16 w | syscall w | ifNotJump w | ifJump w | jump w =>
    simp [encode, bytesF16, decode]
  | _ => rfl

/-- The well-formed instructions are those that some bytes decode to. -/
theorem exists_decode_eq {i : Instr} (h : i.wf = true) : ∃ b0 b1 b2, i = decode b0 b1 b2 :=
  ⟨_, _, _, (decode_encode h).symm⟩

/-! ### The byte decoder -/

/-- The byte decoder takes from a string the encoding of what the opcode map answers for its first
three bytes. -/
theorem decodeBytes_encode_decode (b0 b1 b2 : Byte) (rest : List Byte) :
    decodeBytes (encode (decode b0 b1 b2) ++ rest) = .ok (decode b0 b1 b2, rest) := by
  rw [encode_decode]
  cases hf : opcodeFormat b0 with
  | f0 => simp [formatLength, decodeBytes, hf, decode_f0 hf b1 b2 0 0]
  | f8 => simp [formatLength, decodeBytes, hf, decode_f8 hf b1 b2 0]
  | f16 => simp [formatLength, decodeBytes, hf]

/-- What the byte decoder accepts is the encoding of what the opcode map answers, and the bytes left
over. -/
theorem decodeBytes_ok {bs rest : List Byte} {i : Instr} (h : decodeBytes bs = .ok (i, rest)) :
    ∃ b0 b1 b2, i = decode b0 b1 b2 ∧ bs = encode (decode b0 b1 b2) ++ rest := by
  simp only [encode_decode]
  unfold decodeBytes at h
  split at h
  · cases h
  next b0 r =>
    split at h <;> cases h
    next hf => exact ⟨b0, 0, 0, rfl, by simp [hf, formatLength]⟩
    next b1 hf => exact ⟨b0, b1, 0, rfl, by simp [hf, formatLength]⟩
    next b1 b2 hf => exact ⟨b0, b1, b2, rfl, by simp [hf, formatLength]⟩

/-- Settles O25: a well-formed instruction is one the opcode map answers. -/
theorem decodeOfEncode : Obligations.DecodeOfEncode := by
  intro i rest h
  obtain ⟨b0, b1, b2, rfl⟩ := exists_decode_eq h
  exact decodeBytes_encode_decode b0 b1 b2 rest

/-- Settles O26, from what the byte decoder accepts. -/
theorem encodeOfDecode : Obligations.EncodeOfDecode := by
  intro bs rest i h
  obtain ⟨b0, b1, b2, rfl, hbs⟩ := decodeBytes_ok h
  exact ⟨wf_decode b0 b1 b2, hbs⟩

/-! ### Opcode bytes -/

/-- The whole opcode byte is compared (30_encoding.md R76). -/
theorem opcode_eq_of_decode_eq {b0 b1 b2 c0 c1 c2 : Byte} (h : decode b0 b1 b2 = decode c0 c1 c2) :
    b0 = c0 := by
  have hb := encode_decode_head b0 b1 b2
  rw [h, encode_decode_head] at hb
  exact (Option.some.inj hb).symm

theorem opcode_of_decode_eq_reset {b0 b1 b2 : Byte} (h : decode b0 b1 b2 = .reset) : b0 = 0xF6 :=
  opcode_eq_of_decode_eq (c1 := 0) (c2 := 0) h

/-- Only a bare note's byte decodes to a bare note. -/
theorem isBareNoteByte_of_decode_eq {b0 b1 b2 n : Byte} (h : decode b0 b1 b2 = .bareNote n) :
    isBareNoteByte b0 = true := by
  have hn : (Instr.bareNote n).wf = true := h ▸ wf_decode b0 b1 b2
  have hb : b0 = n := opcode_eq_of_decode_eq (h.trans (decode_of_isBareNoteByte hn 0 0).symm)
  exact hb ▸ hn

/-- Three bytes are enough for any instruction. -/
theorem decodeBytes_answers (b0 b1 b2 : Byte) (rest : List Byte) :
    ∃ i r, decodeBytes (b0 :: b1 :: b2 :: rest) = .ok (i, r) := by
  have h : b0 :: b1 :: b2 :: rest = encode (decode b0 b1 b2)
      ++ ([b0, b1, b2].drop (formatLength (opcodeFormat b0)) ++ rest) := by
    rw [encode_decode, ← List.append_assoc, List.take_append_drop]
    rfl
  exact ⟨_, _, h ▸ decodeBytes_encode_decode b0 b1 b2 _⟩

/-- Settles O22: beside the bare notes' own bytes only 0xF6 runs as a bare note, under RESET's
constructor. -/
theorem unrecognisedByteIsBareNote : Obligations.UnrecognisedByteIsBareNote := by
  refine ⟨decodeBytes_answers, fun b0 b1 b2 => ?_, fun _ _ _ _ _ _ => opcode_eq_of_decode_eq⟩
  split
  next hrec =>
    refine ⟨fun h => ?_, fun n h => ?_⟩
    · rw [opcode_of_decode_eq_reset h] at hrec
      exact absurd hrec (by decide)
    · have hb := (isBareNoteByte_iff b0).mp (isBareNoteByte_of_decode_eq h)
      omega
  next hrec =>
    intro s
    by_cases hb : isBareNoteByte b0 = true
    · rw [decode_of_isBareNoteByte hb]
    · rw [isBareNoteByte_iff] at hb
      obtain rfl : b0 = 0xF6 := BitVec.eq_of_toNat_eq (show b0.toNat = 0xF6 by omega)
      rfl

/-- Settles O21: each word is evaluated. -/
theorem sampleWordsDecode : Obligations.SampleWordsDecode := by
  unfold Obligations.SampleWordsDecode
  decide

/-- Settles O23: the decoded instruction has the format of its opcode byte, and that is a table of the
same lists. -/
theorem formatsByOpcode : Obligations.FormatsByOpcode := by
  intro b0 b1 b2
  rw [instrFormat_decode]
  unfold opcodeFormat
  split
  case h_19 => simp_all -- the byte is in neither list
  all_goals rfl

end Sys2Proof

namespace Sys2Proof.Machine

/-! ### The 16-bit operand -/

/-- The two bytes of the operand stand behind the opcode byte, low byte first (30_encoding.md R74). -/
theorem State.imm16_eq (s : State) : s.imm16 = wordOfBytes (s.codeByte 1) (s.codeByte 2) := by
  have h : s.codeAddr 1 + 1 = s.codeAddr 2 := by
    simp [State.codeAddr, BitVec.add_assoc]
  rw [State.imm16, Memory.read16, h]
  rfl

/-- The fetch, from the opcode byte at the cursor. -/
theorem State.fetch_of_codeByte {s : State} {b : Byte} (h : s.codeByte 0 = b) :
    s.fetch = decode b (s.codeByte 1) (s.codeByte 2) := by
  rw [State.fetch, h]

theorem instrStep_of_fetch {s : State} {i : Instr} (h : s.fetch = i) : instrStep s = exec i s := by
  rw [instrStep, h]

/-- A conditional jump that is taken is a jump (41_control.md R123). -/
theorem exec_ifJump_taken {s : State} (w : Word) (h : s.accumulator = true) :
    exec (.ifJump w) s = .next (s.jumpTo w) := by
  rw [exec, execIfJump, h, State.branch_true]

/-- A conditional jump that is taken is a jump (41_control.md R124). -/
theorem exec_ifNotJump_taken {s : State} (w : Word) (h : s.accumulator = false) :
    exec (.ifNotJump w) s = .next (s.jumpTo w) := by
  rw [exec, execIfNotJump, h, Bool.not_false, State.branch_true]

/-- Settles O24: the operand that is fetched is the one in memory, and a taken jump copies it. -/
theorem imm16IsLittleEndian : Obligations.Imm16IsLittleEndian := by
  intro s
  rw [State.imm16_eq]
  refine ⟨wordOfBytes_toNat _ _, fun h => ?_, fun h => ?_, fun h => ?_,
    State.fetch_of_codeByte, State.fetch_of_codeByte, State.fetch_of_codeByte⟩
  · have hf : s.fetch = .jump _ := State.fetch_of_codeByte h
    exact ⟨hf, instrStep_of_fetch hf⟩
  · have hf : s.fetch = .ifJump _ := State.fetch_of_codeByte h
    exact ⟨hf, fun ha => (instrStep_of_fetch hf).trans (exec_ifJump_taken _ ha)⟩
  · have hf : s.fetch = .ifNotJump _ := State.fetch_of_codeByte h
    exact ⟨hf, fun ha => (instrStep_of_fetch hf).trans (exec_ifNotJump_taken _ ha)⟩

/-- A 16-bit value written low byte first is read back (20_memory.md R54). -/
theorem Memory.read16_writeBytes (m : Memory) (a w : Word) :
    (m.writeBytes a [lowByte w, highByte w]).read16 a = w := by
  have hne : a ≠ a + 1 := by bv_omega
  simp only [Memory.read16, Memory.writeBytes_cons, Memory.writeBytes_nil, Memory.read_write, if_pos,
    if_neg hne, wordOfBytes_low_high]

/-! ### The assembler's coercions -/

theorem coerce8_toNat (v : Int) : (coerce8 (.int v)).toNat = v.natAbs % 256 := by
  simp [coerce8, AsmInput.value]

theorem coerce16_toNat (v : Int) : (coerce16 (.int v)).toNat = v.natAbs % 65536 := by
  simp [coerce16, AsmInput.value]

/-- Coercing a byte again leaves it as it is. -/
theorem coerce8_toNat_self (b : Byte) : coerce8 (.int b.toNat) = b := by
  apply BitVec.eq_of_toNat_eq
  rw [coerce8_toNat, Int.natAbs_natCast]
  exact Nat.mod_eq_of_lt b.isLt

/-- Settles O28: a coerced value is read back because its two bytes are. -/
theorem coercionLaws : Obligations.CoercionLaws := fun v =>
  ⟨coerce8_toNat v, coerce8_toNat_self _, coerce16_toNat v,
    fun m a => m.read16_writeBytes a (coerce16 (.int v)),
    fun m a op => (m.write a op.opcode).read16_writeBytes (a + 1) (coerce16 (.int v))⟩

/-! ### Mnemonics -/

theorem Mnemonic0.encode_instr (m : Mnemonic0) : encode m.instr = [m.opcode] := by cases m <;> rfl

theorem Mnemonic8.encode_instr (m : Mnemonic8) (b : Byte) : encode (m.instr b) = [m.opcode, b] := by
  cases m <;> rfl

theorem Mnemonic16.encode_instr (m : Mnemonic16) (w : Word) :
    encode (m.instr w) = bytesF16 m.opcode w := by
  cases m <;> rfl

theorem Mnemonic0.wf_instr (m : Mnemonic0) : m.instr.wf = true := by cases m <;> rfl

theorem Mnemonic8.wf_instr (m : Mnemonic8) (b : Byte) : (m.instr b).wf = true := by cases m <;> rfl

theorem Mnemonic16.wf_instr (m : Mnemonic16) (w : Word) : (m.instr w).wf = true := by cases m <;> rfl

/-- A mnemonic's instruction is well formed and the bytes it emits are its encoding
(30_encoding.md R90, R94). -/
theorem AsmCall.wf_and_bytes_eq_encode {c : AsmCall} {i : Instr} (h : c.instr = some i) :
    i.wf = true ∧ c.bytes = encode i := by
  cases c with
  | op0 m => cases h; exact ⟨m.wf_instr, m.encode_instr.symm⟩
  | op8 m v => cases h; exact ⟨m.wf_instr _, (m.encode_instr _).symm⟩
  | op16 m v => cases h; exact ⟨m.wf_instr _, (m.encode_instr _).symm⟩
  | byte v | short v => cases h

theorem coerce8_of_nonneg {n : Int} (h : 0 ≤ n) : coerce8 (.int n) = BitVec.ofInt 8 n := by
  apply BitVec.eq_of_toNat_eq
  rw [coerce8_toNat, BitVec.toNat_ofInt]
  omega

/-- `BYTE(n)` with `n` in 1 to 229 emits a bare note's byte. -/
theorem isBareNoteByte_ofInt {n : Int} (h1 : 1 ≤ n) (h2 : n ≤ 229) :
    isBareNoteByte (BitVec.ofInt 8 n) = true := by
  rw [isBareNoteByte_iff, BitVec.toNat_ofInt]
  omega

/-- Settles O29: what is emitted is the encoding of a well-formed instruction. -/
theorem mnemonicEmitsOneInstruction : Obligations.MnemonicEmitsOneInstruction := by
  refine ⟨fun c i rest h => ?_, fun n rest h1 h2 => ?_⟩
  · obtain ⟨hwf, hbytes⟩ := AsmCall.wf_and_bytes_eq_encode h
    rw [hbytes]
    exact decodeOfEncode i rest hwf
  · have hbytes : (AsmCall.byte (.int n)).bytes = encode (.bareNote (BitVec.ofInt 8 n)) :=
      congrArg (fun b => [b]) (coerce8_of_nonneg (by omega))
    rw [hbytes]
    exact decodeOfEncode _ rest (isBareNoteByte_ofInt h1 h2)

end Sys2Proof.Machine
end

section
/-! The dispatch call (40_dispatch.md): its gates, its kinds, what its instruction loop runs, and what
runs of several calls do. -/

namespace Sys2Proof.Machine

/-! ### Runs of calls -/

/-- The induction over a run: `P k` holds after `k` calls, for `k` up to `n`, if it holds before the
first and each of the first `n` calls answers and takes `P k` to `P (k + 1)`. -/
theorem core_run_induct {P : Nat → State → Prop} {n : Nat}
    (hstep : ∀ k s, k < n → P k s → ∃ t, step s = .next t ∧ P (k + 1) t) {k : Nat} {s : State}
    (hk : k ≤ n) (hs : P 0 s) : ∃ u, core.run k s = .next u ∧ P k u := by
  induction k generalizing n s P with
  | zero => exact ⟨s, core_run_zero s, hs⟩
  | succ k ih =>
    obtain ⟨t, ht, hP⟩ := hstep 0 s (by omega) hs
    obtain ⟨u, hu, hPu⟩ := ih (P := fun j => P (j + 1)) (n := n - 1)
      (fun j v hj hv => hstep (j + 1) v (by omega) hv) (by omega) hP
    exact ⟨u, (core_run_succ ht).trans hu, hPu⟩

/-! ### The gates and the kinds of a call -/

/-- The gates in their fixed order (40_dispatch.md R107): one of the four stops the call or lets it
through. -/
theorem State.gate_cases (s : State) :
    s.halted = true ∨ (s.halted = false ∧ s.tickCounter ≠ 0)
      ∨ (s.halted = false ∧ s.tickCounter = 0 ∧ s.waitCounter ≠ 0) ∨ s.gatesOpen := by
  cases hh : s.halted with
  | true => exact .inl rfl
  | false =>
    by_cases ht : s.tickCounter = 0
    · by_cases hw : s.waitCounter = 0
      · exact .inr (.inr (.inr ⟨hh, ht, hw⟩))
      · exact .inr (.inr (.inl ⟨rfl, ht, hw⟩))
    · exact .inr (.inl ⟨rfl, ht⟩)

theorem callKind_halted {s : State} (h : s.halted = true) : callKind s = .halted := by
  unfold callKind
  rw [if_pos h]

@[simp] theorem hardware_loopBound : Config.hardware.loopBound = 255 := rfl

/-- A call of the last two kinds has found every gate open. -/
theorem gatesOpen_of_callKind {s : State} (h : callKind s = .ended ∨ callKind s = .truncated) :
    s.gatesOpen := by
  obtain hh | ⟨hh, ht⟩ | ⟨hh, ht, hw⟩ | ho := s.gate_cases
  · simp [callKind_halted hh] at h
  · simp [callKind_throttled hh ht] at h
  · simp [callKind_waiting hh ht hw] at h
  · exact ho

/-- Ended: an instruction of the loop ends the phase (40_dispatch.md R112, fourth row). -/
theorem callKind_ended_iff {s : State} :
    callKind s = .ended ↔ s.gatesOpen ∧ loopEnds 255 s.phaseStart = true := by
  rw [← and_iff_right_of_imp fun h => gatesOpen_of_callKind (.inl h)]
  refine and_congr_right fun ho => ?_
  rw [callKind_open ho, hardware_loopBound]
  split <;> simp [*]

/-- Truncated: no instruction of the loop ends the phase (40_dispatch.md R112, fifth row). -/
theorem callKind_truncated_iff {s : State} :
    callKind s = .truncated ↔ s.gatesOpen ∧ loopEnds 255 s.phaseStart = false := by
  rw [← and_iff_right_of_imp fun h => gatesOpen_of_callKind (.inr h)]
  refine and_congr_right fun ho => ?_
  rw [callKind_open ho, hardware_loopBound]
  split <;> simp [*]

theorem callFetches_of_not_gatesOpen {s : State} (h : ¬ s.gatesOpen) : callFetches s = 0 := by
  obtain hh | ⟨-, ht⟩ | ⟨-, -, hw⟩ | ho := s.gate_cases
  · exact callFetches_halted hh
  · exact callFetches_throttled ht
  · exact callFetches_waiting hw
  · exact absurd ho h

/-- A dispatch call answers, whatever the state (40_dispatch.md R116). -/
theorem step_answers (s : State) : ∃ t, step s = .next t := by
  obtain h | ⟨h, ht⟩ | ⟨h, ht, hw⟩ | ho := s.gate_cases
  · exact ⟨_, step_halted h⟩
  · exact ⟨_, step_throttled h ht⟩
  · exact ⟨_, step_waiting h ht hw⟩
  · rw [step_open ho]
    exact phaseLoop_answers exec_answers 255 s.phaseStart

/-! ### How far the loop runs -/

theorem loopFetches_le (n : Nat) (s : State) : loopFetches n s ≤ n := by
  induction n generalizing s with
  | zero => exact le_rfl
  | succ n ih =>
    obtain ⟨t, ht⟩ := exec_answers s.fetch s
    rw [loopFetches_succ ht]
    have := ih t
    split <;> omega

theorem loopFetches_succ_pos (n : Nat) (s : State) : 1 ≤ loopFetches (n + 1) s := by
  obtain ⟨t, ht⟩ := exec_answers s.fetch s
  rw [loopFetches_succ ht]
  split <;> omega

/-- If the first instruction continues, the other iterations go on from what it answers. -/
theorem loopEnds_succ_eq_false {n : Nat} {s t : State} (h : exec s.fetch s = .next t) :
    loopEnds (n + 1) s = false ↔
      endsPhase Config.hardware s.fetch = false ∧ loopEnds n t = false := by
  rw [loopEnds_succ h, Bool.or_eq_false_iff]

/-- A loop that no instruction ends runs to its bound (40_dispatch.md R109). -/
theorem loopFetches_of_not_loopEnds {n : Nat} {s : State} (h : loopEnds n s = false) :
    loopFetches n s = n := by
  induction n generalizing s with
  | zero => rfl
  | succ n ih =>
    obtain ⟨t, ht⟩ := exec_answers s.fetch s
    obtain ⟨hi, hn⟩ := (loopEnds_succ_eq_false ht).mp h
    rw [loopFetches_succ ht, hi, if_neg Bool.false_ne_true, ih hn, Nat.add_comm]

/-- As many iterations as there are fetches are enough. -/
theorem phaseLoop_loopFetches (n : Nat) (s : State) :
    phaseLoop exec (endsPhase Config.hardware) (loopFetches n s) s
      = phaseLoop exec (endsPhase Config.hardware) n s := by
  induction n generalizing s with
  | zero => rfl
  | succ n ih =>
    obtain ⟨t, ht⟩ := exec_answers s.fetch s
    rw [loopFetches_succ ht, phaseLoop_succ ht]
    split
    next he => rw [phaseLoop_succ (n := 0) ht, if_pos he]
    next he => rw [Nat.add_comm, phaseLoop_succ ht, if_neg he, ih t]

/-- A loop that no instruction ends can be cut in two (40_dispatch.md R109: a plain loop bound). -/
theorem phaseLoop_add {m n : Nat} {s t : State} (he : loopEnds m s = false)
    (h : phaseLoop exec (endsPhase Config.hardware) m s = .next t) :
    phaseLoop exec (endsPhase Config.hardware) (m + n) s
      = phaseLoop exec (endsPhase Config.hardware) n t := by
  induction m generalizing s with
  | zero =>
    cases h
    rw [Nat.zero_add]
  | succ m ih =>
    obtain ⟨u, hu⟩ := exec_answers s.fetch s
    obtain ⟨hi, hm⟩ := (loopEnds_succ_eq_false hu).mp he
    rw [phaseLoop_succ hu, hi, if_neg Bool.false_ne_true] at h
    rw [Nat.add_right_comm, phaseLoop_succ hu, hi, if_neg Bool.false_ne_true, ih hm h]

/-- The loop by its way out: what continuing instructions keep holds at the bound, or else before the
instruction that ends the phase. -/
theorem phaseLoop_cases {Q : State → Prop}
    (hgo : ∀ {i s t}, Q s → endsPhase Config.hardware i = false → exec i s = .next t → Q t)
    {n : Nat} {s t : State} (hs : Q s)
    (h : phaseLoop exec (endsPhase Config.hardware) n s = .next t) :
    (loopEnds n s = false ∧ Q t)
      ∨ (loopEnds n s = true
        ∧ ∃ i u, Q u ∧ endsPhase Config.hardware i = true ∧ exec i u = .next t) := by
  induction n generalizing s with
  | zero =>
    cases h
    exact .inl ⟨rfl, hs⟩
  | succ n ih =>
    obtain ⟨u, hu⟩ := exec_answers s.fetch s
    rw [phaseLoop_succ hu] at h
    rw [loopEnds_succ hu]
    cases hi : endsPhase Config.hardware s.fetch with
    | true =>
      rw [hi, if_pos rfl] at h
      exact .inr ⟨rfl, s.fetch, s, hs, hi, hu.trans h⟩
    | false =>
      rw [hi, if_neg Bool.false_ne_true] at h
      exact ih (hgo hs hi hu) h

/-! ### Inside a phase -/

/-- What holds of the state `u` in the loop of the call requested in `s` as long as no instruction has
ended the phase: the timing fields stand as the phase start left them, no pulse is true, and only
`HALT` has emitted (40_dispatch.md R111, R112). -/
structure MidPhase (s u : State) : Prop where
  tickCounter : u.tickCounter = s.tickRate
  tickRate : u.tickRate = s.tickRate
  waitCounter : u.waitCounter = s.waitCounter
  noPulse : u.noPulse
  events : ∃ k, u.events = List.replicate k .halt

theorem midPhase_phaseStart (s : State) : MidPhase s s.phaseStart :=
  ⟨rfl, rfl, rfl, s.phaseStart_noPulse, 0, rfl⟩

theorem MidPhase.exec_continuing {s u v : State} {i : Instr} (hu : MidPhase s u)
    (hi : endsPhase Config.hardware i = false) (h : exec i u = .next v) : MidPhase s v := by
  obtain ⟨-, ht, -⟩ := exec_leaves h
  obtain ⟨-, ⟨hr, hw⟩, hev⟩ := Machine.exec_continuing hi h
  refine ⟨ht.trans hu.tickCounter, hr.trans hu.tickRate, hw.trans hu.waitCounter,
    exec_continuing_noPulse hi h hu.noPulse, ?_⟩
  obtain ⟨k, hk⟩ := hu.events
  obtain ⟨-, he⟩ | ⟨-, -, he⟩ := hev
  · exact ⟨k, he.trans hk⟩
  · exact ⟨k + 1, by rw [he, hk, List.replicate_succ']⟩

/-- A call that reaches its loop is cut in the middle of the phase or ended by one instruction from
there. -/
theorem step_open_cases {s t : State} (ho : s.gatesOpen) (h : step s = .next t) :
    (callKind s = .truncated ∧ MidPhase s t)
      ∨ (callKind s = .ended
        ∧ ∃ i u, MidPhase s u ∧ endsPhase Config.hardware i = true ∧ exec i u = .next t) := by
  rw [step_open ho] at h
  rw [callKind_truncated_iff, callKind_ended_iff]
  obtain ⟨he, hQ⟩ | ⟨he, hQ⟩ :=
    phaseLoop_cases MidPhase.exec_continuing (midPhase_phaseStart s) h
  · exact .inl ⟨⟨ho, he⟩, hQ⟩
  · exact .inr ⟨⟨ho, he⟩, hQ⟩

theorem step_truncated {s t : State} (hk : callKind s = .truncated) (h : step s = .next t) :
    MidPhase s t := by
  obtain ⟨-, hm⟩ | ⟨he, -⟩ := step_open_cases (callKind_truncated_iff.mp hk).1 h
  · exact hm
  · rw [hk] at he
    cases he

theorem step_ended {s t : State} (hk : callKind s = .ended) (h : step s = .next t) :
    ∃ u, MidPhase s u ∧ Signals u t := by
  obtain ⟨hc, -⟩ | ⟨-, i, u, hm, hi, hx⟩ := step_open_cases (callKind_ended_iff.mp hk).1 h
  · rw [hk] at hc
    cases hc
  · exact ⟨u, hm, (exec_ending hi hx).2⟩

/-! ### Every call returns, within the bound -/

/-- Settles O44: no meaning faults or refuses, and the gates and the loop pass on what it answers. -/
theorem everyCallReturns : Obligations.EveryCallReturns := ⟨exec_answers, step_answers⟩

/-- A call cut at the bound has run to it (40_dispatch.md R109). -/
theorem callFetches_truncated {s : State} (h : callKind s = .truncated) : callFetches s = 255 := by
  obtain ⟨ho, he⟩ := callKind_truncated_iff.mp h
  rw [callFetches_open ho]
  exact loopFetches_of_not_loopEnds he

/-- Settles O41: an open call's fetches are those of its loop, which the bound limits. -/
theorem atMost255Fetches : Obligations.AtMost255Fetches := by
  intro s
  refine ⟨?_, callFetches_truncated, fun ho => ?_, callFetches_of_not_gatesOpen⟩
  · by_cases ho : s.gatesOpen
    · rw [callFetches_open ho]
      exact loopFetches_le 255 s.phaseStart
    · rw [callFetches_of_not_gatesOpen ho]
      exact Nat.zero_le 255
  · rw [callFetches_open ho, step_open ho]
    exact ⟨loopFetches_succ_pos 254 s.phaseStart, (phaseLoop_loopFetches 255 s.phaseStart).symm⟩

/-! ### A cycle of jumps -/

/-- From a set of offsets each of which holds a jump into the set, every number of iterations ends in
the set, with the cursor alone moved and the phase not ended. -/
theorem phaseLoop_jumpCycle {p : State} {cycle : Word → Prop}
    (hjump : ∀ c, cycle c → ∃ c', cycle c' ∧ (p.jumpTo c).fetch = .jump c') (n : Nat) {c : Word}
    (hc : cycle c) :
    ∃ c', cycle c' ∧ loopEnds n (p.jumpTo c) = false
      ∧ phaseLoop exec (endsPhase Config.hardware) n (p.jumpTo c) = .next (p.jumpTo c') := by
  induction n generalizing c with
  | zero => exact ⟨c, hc, rfl, rfl⟩
  | succ n ih =>
    obtain ⟨d, hd, hf⟩ := hjump c hc
    obtain ⟨c', hc', he, hl⟩ := ih hd
    have hx : exec (p.jumpTo c).fetch (p.jumpTo c) = .next (p.jumpTo d) := by
      rw [hf]
      rfl
    have hi : endsPhase Config.hardware (p.jumpTo c).fetch = false := by
      rw [hf]
      rfl
    refine ⟨c', hc', (loopEnds_succ_eq_false hx).mpr ⟨hi, he⟩, ?_⟩
    rw [phaseLoop_succ hx, hi, if_neg Bool.false_ne_true, hl]

/-- Settles O42: the loop stays in the cycle for all its iterations. -/
theorem jumpCycleIsTruncated : Obligations.JumpCycleIsTruncated := by
  intro s cycle ho hc hjump
  obtain ⟨c', hc', he, hl⟩ := phaseLoop_jumpCycle (p := s.phaseStart) hjump 255 hc
  have hk : callKind s = .truncated := callKind_truncated_iff.mpr ⟨ho, he⟩
  exact ⟨s.phaseStart.jumpTo c', (step_open ho).trans hl, hc', rfl, callFetches_truncated hk, hk⟩

/-! ### Events and pulses of a call -/

/-- An instruction emits at most one event. -/
theorem exec_events_length_le {i : Instr} {s t : State} (h : exec i s = .next t) :
    t.events.length ≤ s.events.length + 1 := by
  cases hi : endsPhase Config.hardware i with
  | false => obtain ⟨-, -, ⟨-, he⟩ | ⟨-, -, he⟩⟩ := exec_continuing hi h <;> simp [he]
  | true => cases (exec_ending hi h).2 <;> simp [*]

theorem phaseLoop_events_length_le {n : Nat} {s t : State}
    (h : phaseLoop exec (endsPhase Config.hardware) n s = .next t) :
    t.events.length ≤ s.events.length + n := by
  induction n generalizing s with
  | zero =>
    cases h
    exact le_rfl
  | succ n ih =>
    obtain ⟨u, hu⟩ := exec_answers s.fetch s
    have hone := exec_events_length_le hu
    rw [phaseLoop_succ hu] at h
    split at h
    · cases h
      omega
    · have := ih h
      omega

/-- A call emits at most as many events as its loop has iterations (40_dispatch.md R111). -/
theorem step_events_length_le {s t : State} (h : step s = .next t) : t.events.length ≤ 255 := by
  obtain ⟨-, rfl⟩ | ⟨-, -, rfl⟩ | ⟨-, -, -, rfl⟩ | ⟨-, hl⟩ := dispatchBy_cases h
  · simp
  · simp
  · simp
  · simpa using phaseLoop_events_length_le hl

/-- A phase-ending instruction adds at most one event, which is no `Halt`. -/
theorem Signals.events_append {s t : State} (h : Signals s t) :
    ∃ last : List Event, t.events = s.events ++ last ∧ last.length ≤ 1 ∧ .halt ∉ last := by
  cases h with
  | silent he => exact ⟨[], by simpa using he, by simp⟩
  | syscall he => exact ⟨_, he, by simp⟩
  | instrument he => exact ⟨_, he, by simp⟩
  | play he => exact ⟨_, he, by simp⟩

/-- Settles O45: in a phase only `HALT` emits, until the instruction that ends it. -/
theorem eventsOfACall : Obligations.EventsOfACall := by
  intro s t h
  refine ⟨step_events_length_le h, ?_⟩
  obtain ⟨-, rfl⟩ | ⟨-, -, rfl⟩ | ⟨-, -, -, rfl⟩ | ⟨ho, -⟩ := dispatchBy_cases h
  · exact ⟨1, [], rfl, by simp⟩
  · exact ⟨0, [], rfl, by simp⟩
  · exact ⟨0, [], rfl, by simp⟩
  · obtain ⟨-, hm⟩ | ⟨hk, -⟩ := step_open_cases ho h
    · obtain ⟨k, he⟩ := hm.events
      exact ⟨k, [], by simpa using he, by simp⟩
    · obtain ⟨u, hm, hs⟩ := step_ended hk h
      obtain ⟨k, hu⟩ := hm.events
      obtain ⟨last, he, hlast⟩ := hs.events_append
      exact ⟨k, last, hu ▸ he, hlast⟩

/-- Run where no pulse is true and nothing but `Halt`s is emitted, a phase-ending instruction raises the
pulse of the event it emits (45_events.md R185). -/
theorem Signals.pulse_iff_event {u t : State} {k : Nat} (h : Signals u t) (hp : u.noPulse)
    (hu : u.events = List.replicate k .halt) :
    (t.syscallPulse = true ↔ ∃ c, .syscall c ∈ t.events)
      ∧ (t.instrumentPulse = true ↔ ∃ i, .instrument i ∈ t.events)
      ∧ (t.playPulse = true ↔ ∃ n, .play n ∈ t.events) := by
  obtain ⟨hsys, hins, hply⟩ := hp
  cases h with
  | silent he sys ins ply => simp [he, hu, sys, ins, ply, hsys, hins, hply]
  | syscall he sys ins ply => simp [he, hu, sys, ins, ply, hins, hply]
  | instrument he sys ins ply => simp [he, hu, sys, ins, ply, hsys, hply]
  | play he sys ins ply => simp [he, hu, sys, ins, ply, hsys, hins]

/-- Settles O47: an active phase clears the pulses, and only the instruction that ends it raises one,
with its event. -/
theorem pulsesByKindOfCall : Obligations.PulsesByKindOfCall := by
  intro s t h
  obtain ⟨hh, rfl⟩ | ⟨hh, ht, rfl⟩ | ⟨hh, ht, hw, rfl⟩ | ⟨ho, -⟩ := dispatchBy_cases h
  · simp [callKind_halted hh]
  · simp [callKind_throttled hh ht]
  · simp [callKind_waiting hh ht hw]
  · obtain ⟨hk, hm⟩ | ⟨hk, -⟩ := step_open_cases ho h
    · simpa [hk] using show _ ∧ _ ∧ _ from hm.noPulse
    · obtain ⟨u, hm, hs⟩ := step_ended hk h
      obtain ⟨k, hu⟩ := hm.events
      simpa [hk] using hs.pulse_iff_event hm.noPulse hu

/-! ### Halted, throttled and waiting calls -/

theorem dispatchStream_succ {n : Nat} {s t u : State} {es : List Event} (h : step s = .next t)
    (hn : dispatchStream n t = .next (u, es)) :
    dispatchStream (n + 1) s = .next (u, t.events ++ es) := by
  simp only [dispatchStream, h, hn]

/-- A halted Track hands over one `Halt` a call, for ever (40_dispatch.md R101). -/
theorem dispatchStream_halted (n : Nat) {s : State} (h : s.halted = true) :
    dispatchStream (n + 1) s
      = .next ({ s with events := [.halt] }, List.replicate (n + 1) .halt) := by
  induction n generalizing s with
  | zero => exact dispatchStream_succ (step_halted h) rfl
  | succ n ih => exact dispatchStream_succ (step_halted h) (ih h)

/-- Settles O36: the halted gate is the first one, and it leaves `halted` as it is. -/
theorem haltedCallOnlyEmitsHalt : Obligations.HaltedCallOnlyEmitsHalt :=
  ⟨fun _ h => ⟨step_halted h, callFetches_halted h, fun n => dispatchStream_halted n h⟩,
    fun _ => ⟨_, rfl, rfl, rfl⟩⟩

/-- A counter above 0 counts down without wrapping. -/
theorem Word.toNat_sub_one {w : Word} (h : 0 < w.toNat) : (w - 1).toNat = w.toNat - 1 := by
  bv_omega

theorem Word.toNat_pos_iff {w : Word} : 0 < w.toNat ↔ w ≠ 0 := by
  rw [Nat.pos_iff_ne_zero, ne_eq, ne_eq, BitVec.toNat_eq]
  rfl

/-- Settles O37, by the throttled path of the call. -/
theorem throttledCallOnlyDecrements : Obligations.ThrottledCallOnlyDecrements := by
  intro s h ht
  have ht' := Word.toNat_pos_iff.mp ht
  exact ⟨_, step_throttled h ht', Word.toNat_sub_one ht, rfl, rfl, callFetches_throttled ht'⟩

/-- Settles O38, by the waiting path of the call. -/
theorem waitingPhaseReloadsClearsAndCountsDown :
    Obligations.WaitingPhaseReloadsClearsAndCountsDown := by
  intro s h ht hw
  have hw' := Word.toNat_pos_iff.mp hw
  exact ⟨_, step_waiting h ht hw', Word.toNat_sub_one hw, rfl, callFetches_waiting hw'⟩

/-! ### The rate -/

/-- No instruction of the loop touches `tickCounter` (44_timing.md R174). -/
theorem phaseLoop_tickCounter {ends : Instr → Bool} {n : Nat} {s t : State}
    (h : phaseLoop exec ends n s = .next t) : t.tickCounter = s.tickCounter :=
  have hkeep : ∀ {i u w}, u.tickCounter = s.tickCounter → exec i u = .next w →
      w.tickCounter = s.tickCounter := fun hu hx => (exec_leaves hx).2.1.trans hu
  phaseLoop_induct (Q := fun u => u.tickCounter = s.tickCounter)
    (fun _ _ _ hu _ hx => hkeep hu hx) (fun _ _ _ hu _ hx => hkeep hu hx) (fun _ hu => hu)
    n s t rfl h

/-- An active phase reloads `tickCounter` from the rate it starts with (40_dispatch.md R103). -/
theorem step_active_tickCounter {s t : State} (hh : s.halted = false) (ht : s.tickCounter = 0)
    (h : step s = .next t) : t.tickCounter = s.tickRate := by
  obtain ⟨h1, -⟩ | ⟨-, h2, -⟩ | ⟨-, -, -, rfl⟩ | ⟨-, hl⟩ := dispatchBy_cases h
  · exact absurd (hh.symm.trans h1) Bool.false_ne_true
  · exact absurd ht h2
  · rfl
  · exact phaseLoop_tickCounter hl

/-- `u` is `t` after `k` throttled calls: `tickCounter` has gone down by `k`, and nothing else of the
Track or of memory has changed (40_dispatch.md R102). -/
structure ThrottledFor (t : State) (k : Nat) (u : State) : Prop where
  tickCounter : u.tickCounter.toNat = t.tickCounter.toNat - k
  frame : u = { t with tickCounter := u.tickCounter, events := u.events }

/-- A running Track is throttled until `tickCounter` is 0. -/
theorem core_run_throttled {t : State} (hh : t.halted = false) {k : Nat}
    (hk : k ≤ t.tickCounter.toNat) : ∃ u, core.run k t = .next u ∧ ThrottledFor t k u := by
  refine core_run_induct (P := ThrottledFor t) ?_ hk ⟨rfl, rfl⟩
  rintro k u hlt ⟨hu, hframe⟩
  have hpos : 0 < u.tickCounter.toNat := by omega
  have hrun : u.halted = false := by rw [hframe]; exact hh
  refine ⟨_, step_throttled hrun (Word.toNat_pos_iff.mp hpos), ?_, ?_⟩
  · have := Word.toNat_sub_one hpos
    rw [State.throttle_tickCounter, State.beginCall_tickCounter]
    omega
  · rw [hframe]
    rfl

/-- Settles O48: the phase reloads `tickCounter`, and the throttled calls count it down. -/
theorem rateLaw : Obligations.RateLaw := by
  intro s t hh ht h hrun k hk
  have hr := step_active_tickCounter hh ht h
  rw [← hr] at hk ⊢
  obtain ⟨u, hu, hc, hframe⟩ := core_run_throttled hrun hk
  have hu' : u.halted = false := by rw [hframe]; exact hrun
  refine ⟨u, hu, hu', hc, hframe, fun hlt => callKind_throttled hu' ?_⟩
  exact Word.toNat_pos_iff.mp (by omega)

/-! ### After a cut call -/

/-- Halted calls follow each other for ever, and none changes the Track. -/
theorem core_run_halted {t : State} (h : t.halted = true) (n : Nat) :
    ∃ u, core.run n t = .next u ∧ u.toTrack = t.toTrack := by
  refine core_run_induct (P := fun _ u => u.toTrack = t.toTrack) (n := n) ?_ le_rfl rfl
  intro _ u _ hu
  have hh : u.halted = true := (congrArg Track.halted hu).trans h
  exact ⟨_, step_halted hh, hu⟩

/-- Reload and clear change nothing where `tickCounter` is at the rate and no pulse is true. -/
theorem State.openPhase_eq_self {s : State} (ht : s.tickCounter = s.tickRate) (hp : s.noPulse) :
    s.openPhase = s := by
  obtain ⟨⟨⟩, _, _⟩ := s
  obtain ⟨rfl, rfl, rfl⟩ := hp
  cases ht
  rfl

/-- Past the throttled calls after a cut call, the next phase starts from the cut call's state. -/
theorem MidPhase.phaseStart_eq {s t u : State} (hm : MidPhase s t)
    (hu : u = { t with tickCounter := u.tickCounter, events := u.events }) :
    u.phaseStart = t.beginCall := by
  calc u.phaseStart = t.beginCall.openPhase := by rw [hu]; rfl
    _ = t.beginCall :=
      State.openPhase_eq_self (hm.tickCounter.trans hm.tickRate.symm) hm.noPulse

/-- Settles O43: the loop splits where it is cut, and between the two parts the rate law or the halted
gate holds. -/
theorem truncationResumes : Obligations.TruncationResumes := by
  refine ⟨fun m n s t => phaseLoop_add, fun s t hk h hrun => ?_, fun s t _ _ hh n => ?_⟩
  · obtain ⟨hsh, hst, hsw⟩ := (callKind_truncated_iff.mp hk).1
    have hm := step_truncated hk h
    have hrate := rateLaw s t hsh hst h hrun
    refine ⟨fun k hlt => ?_, ?_⟩
    · obtain ⟨u, hu, -, -, -, hkind⟩ := hrate k hlt.le
      exact ⟨u, hu, hkind hlt⟩
    · obtain ⟨u, hu, huh, huc, hframe, -⟩ := hrate _ le_rfl
      have hwait : u.waitCounter = 0 := by
        rw [hframe]
        exact hm.waitCounter.trans hsw
      have ho : u.gatesOpen := ⟨huh, BitVec.eq_of_toNat_eq (by simpa using huc), hwait⟩
      have hstart : u.phaseStart = { t with events := [] } := hm.phaseStart_eq hframe
      exact ⟨u, hu, ho, by rw [hframe], hstart, by rw [step_open ho, hstart]⟩
  · obtain ⟨u, hu, htrack⟩ := core_run_halted hh n
    exact ⟨u, hu, callKind_halted ((congrArg Track.halted htrack).trans hh), htrack⟩

/-! ### The pause -/

/-- How many calls a running Track lets pass before it fetches: a waiting phase is one call and reloads
`tickCounter` for `tickRate` more (44_timing.md R175). -/
def State.pauseLeft (s : State) : Nat :=
  s.waitCounter.toNat * (s.tickRate.toNat + 1) + s.tickCounter.toNat

/-- The pause is over when both counters are 0. -/
theorem State.pauseLeft_eq_zero_iff (s : State) :
    s.pauseLeft = 0 ↔ s.tickCounter = 0 ∧ s.waitCounter = 0 := by
  simp [State.pauseLeft, BitVec.toNat_eq, and_comm]

theorem callFetches_of_pauseLeft_pos {s : State} (h : 0 < s.pauseLeft) : callFetches s = 0 :=
  callFetches_of_not_gatesOpen fun ⟨_, ht, hw⟩ => h.ne' (s.pauseLeft_eq_zero_iff.mpr ⟨ht, hw⟩)

/-- A call in a pause takes one from it, keeps the cursor and emits nothing. -/
theorem step_pause {s : State} (hh : s.halted = false) (h : 0 < s.pauseLeft) :
    ∃ t, step s = .next t ∧ t.pauseLeft + 1 = s.pauseLeft ∧ t.halted = false
      ∧ t.cursor = s.cursor ∧ t.events = [] := by
  by_cases ht : s.tickCounter = 0
  · have hw : s.waitCounter ≠ 0 := fun hw => h.ne' (s.pauseLeft_eq_zero_iff.mpr ⟨ht, hw⟩)
    refine ⟨_, step_waiting hh ht hw, ?_, hh, rfl, rfl⟩
    have hpos := Word.toNat_pos_iff.mpr hw
    calc s.phaseStart.consumeWait.pauseLeft + 1
        = (s.waitCounter - 1).toNat * (s.tickRate.toNat + 1) + (s.tickRate.toNat + 1) := rfl
      _ = s.waitCounter.toNat * (s.tickRate.toNat + 1) := by
        rw [Word.toNat_sub_one hpos, ← Nat.succ_mul, Nat.succ_eq_add_one, Nat.sub_add_cancel hpos]
      _ = s.pauseLeft := by simp [State.pauseLeft, ht]
  · refine ⟨_, step_throttled hh ht, ?_, hh, rfl, rfl⟩
    have hpos := Word.toNat_pos_iff.mpr ht
    calc s.beginCall.throttle.pauseLeft + 1
        = s.waitCounter.toNat * (s.tickRate.toNat + 1) + (s.tickCounter - 1).toNat + 1 := rfl
      _ = s.pauseLeft := by
        rw [Word.toNat_sub_one hpos, Nat.add_assoc, Nat.sub_add_cancel hpos, State.pauseLeft]

/-- `u` is `t` after `k` calls of a pause: still running at the same cursor, with no event. -/
structure PausedFor (t : State) (k : Nat) (u : State) : Prop where
  pauseLeft : u.pauseLeft + k = t.pauseLeft
  halted : u.halted = false
  cursor : u.cursor = t.cursor
  events : u.events = []

/-- A running Track that has emitted nothing stays so for its whole pause. -/
theorem core_run_pause {t : State} (hh : t.halted = false) (he : t.events = []) {k : Nat}
    (hk : k ≤ t.pauseLeft) : ∃ u, core.run k t = .next u ∧ PausedFor t k u := by
  refine core_run_induct (P := PausedFor t) ?_ hk ⟨rfl, hh, rfl, he⟩
  rintro k u hlt ⟨hp, hu, hc, -⟩
  obtain ⟨v, hv, hpv, hvh, hvc, hve⟩ := step_pause hu (by omega)
  exact ⟨v, hv, by omega, hvh, hvc.trans hc, hve⟩

/-- What `WAIT` and `WAIT16` have in common: the call that runs one sets the wait counter and moves the
cursor past the instruction (44_timing.md R172, R173). -/
theorem step_wait {s : State} {n len : Nat} (ho : s.gatesOpen)
    (hf : (∃ imm, s.fetch = .wait imm ∧ n = imm.toNat ∧ len = 2)
      ∨ ∃ imm16, s.fetch = .wait16 imm16 ∧ n = imm16.toNat ∧ len = 3) :
    ∃ w : Word, w.toNat = n ∧ step s
      = .next ((s.phaseStart.setWaitCounter w).advance (BitVec.ofNat 16 len)) := by
  obtain ⟨imm, hf, rfl, rfl⟩ | ⟨imm16, hf, rfl, rfl⟩ := hf
  · exact ⟨zext16 imm, BitVec.toNat_setWidth_of_le (by decide),
      step_of_ending ho (by rw [hf]; rfl) (by rw [hf]; rfl)⟩
  · exact ⟨imm16, rfl, step_of_ending ho (by rw [hf]; rfl) (by rw [hf]; rfl)⟩

/-- Settles O50: the pause that `WAIT` starts counts down by one a call. -/
theorem pauseLaw : Obligations.PauseLaw := by
  intro s n len ho hf
  obtain ⟨w, rfl, hstep⟩ := step_wait ho hf
  have hpause {k : Nat} (hk : k ≤ w.toNat * (s.tickRate.toNat + 1) + s.tickRate.toNat) :=
    core_run_pause (t := (s.phaseStart.setWaitCounter w).advance (BitVec.ofNat 16 len)) ho.1 rfl hk
  refine ⟨_, hstep, by simp [movedBy, BitVec.toNat_add], fun k hk => ?_, ?_⟩
  · obtain ⟨u, hu, hp, -, hc, he⟩ := hpause hk.le
    refine ⟨u, hu, callFetches_of_pauseLeft_pos ?_, hc, he⟩
    exact Nat.pos_of_lt_add_left (hk.trans_eq hp.symm)
  · obtain ⟨u, hu, hp, hh, hc, -⟩ := hpause le_rfl
    obtain ⟨ht, hw⟩ := u.pauseLeft_eq_zero_iff.mp (Nat.right_eq_add.mp hp.symm)
    exact ⟨u, hu, ⟨hh, ht, hw⟩, hc⟩

/-! ### The instruction that is run -/

/-- Settles O27: the opcode map is gone through byte by byte; a byte with no entry of its own is a bare
note's, in 0x01 to 0xE5. -/
theorem controlOutcomeFixedByOpcode : Obligations.ControlOutcomeFixedByOpcode := by
  intro b0 b1 b2
  unfold decode
  split
  case h_28 =>
    simp only [imp_false] at *
    exact iff_of_true rfl (by bv_omega)
  all_goals simp [endsPhase, controlOutcome, Config.hardware]

/-- Settles O39: the byte decoder answers what is fetched, and the loop runs that first. -/
theorem stepRunsDecodedInstruction : Obligations.StepRunsDecodedInstruction := by
  intro s i rest ho hd
  obtain ⟨r, hr⟩ := decodeBytes_three (s.codeByte 0) (s.codeByte 1) (s.codeByte 2)
  obtain ⟨hfetch, -⟩ : s.fetch = i ∧ r = rest := by
    rw [hr] at hd
    injection hd with hd
    exact Prod.mk.inj hd
  obtain ⟨t, ht⟩ := exec_answers i s.phaseStart
  refine ⟨hfetch ▸ wf_decode _ _ _, instrStep_of_fetch hfetch, rfl, t, ht, ?_⟩
  rw [step_open ho, phaseLoop_succ (t := t) (by rwa [State.phaseStart_fetch, hfetch]),
    State.phaseStart_fetch, hfetch]

end Sys2Proof.Machine
end

section
/-! The control instructions (41_control.md): what each does to the cursor and what it leaves alone, and
the instruction that runs after `HALT`. -/

namespace Sys2Proof.Machine

/-! ### The cursor -/

theorem movedBy_of_cursor {s t : State} {n : Nat} (h : t.cursor = s.cursor + BitVec.ofNat 16 n) :
    movedBy s t n := by
  simp [movedBy, h, BitVec.toNat_add]

/-- The frame of a jump: the cursor is the one field it writes. -/
theorem State.jumpTo_frame (s : State) (c : Word) :
    s.jumpTo c = { s with cursor := (s.jumpTo c).cursor } ∧ sameMemory s (s.jumpTo c) :=
  ⟨rfl, sameMemory_of_pmem_eq rfl⟩

/-- What an instruction does whose meaning is a conditional transfer (41_control.md R123, R124, R127,
R128). -/
theorem exec_branch {i : Instr} {s : State} {taken : Bool} {target : Word} {n : Nat}
    (h : exec i s = .next (s.branch taken target (BitVec.ofNat 16 n))) :
    ∃ t, exec i s = .next t ∧ t = { s with cursor := t.cursor } ∧ sameMemory s t
      ∧ (if taken then t.cursor = target else movedBy s t n) := by
  rw [State.branch_eq] at h
  obtain ⟨hframe, hmem⟩ := s.jumpTo_frame (if taken then target else s.cursor + BitVec.ofNat 16 n)
  refine ⟨_, h, hframe, hmem, ?_⟩
  cases taken with
  | true => rfl
  | false => exact movedBy_of_cursor rfl

/-- The same where the transfer is made when `acc` is false. -/
theorem exec_branch_not {i : Instr} {s : State} {acc : Bool} {target : Word} {n : Nat}
    (h : exec i s = .next (s.branch (!acc) target (BitVec.ofNat 16 n))) :
    ∃ t, exec i s = .next t ∧ t = { s with cursor := t.cursor } ∧ sameMemory s t
      ∧ (if acc then movedBy s t n else t.cursor = target) := by
  cases acc <;> exact exec_branch h

/-! ### `HALT` and the instruction after it -/

/-- A call whose first instruction continues goes on with the rest of its loop (40_dispatch.md R108). -/
theorem step_of_continuing {s t : State} (ho : s.gatesOpen)
    (he : endsPhase Config.hardware s.fetch = false) (hx : exec s.fetch s.phaseStart = .next t) :
    step s = phaseLoop exec (endsPhase Config.hardware) 254 t := by
  rw [step_open ho, phaseLoop_succ (by rw [State.phaseStart_fetch]; exact hx),
    State.phaseStart_fetch, he, if_neg Bool.false_ne_true]

theorem exec_halt (s : State) : exec .halt s = .next (s.haltBy 1) := rfl

/-- Settles O40: `HALT` continues with `Halt` as the one event of the call so far, and the instruction
after it keeps `halted` and only appends. -/
theorem instructionAfterHaltRuns : Obligations.InstructionAfterHaltRuns := by
  intro s t u ho hf hhalt he hx
  have hloop : step s = phaseLoop exec (endsPhase Config.hardware) 254 t :=
    step_of_continuing ho (by rw [hf]; rfl) (by rw [hf]; exact hhalt)
  rw [exec_halt] at hhalt
  cases hhalt
  obtain ⟨hh, hsig⟩ := exec_ending he hx
  obtain ⟨es, hes, -⟩ := hsig.events_append
  refine ⟨?_, hh, es, hes⟩
  rw [hloop, phaseLoop_succ hx, if_pos he]

/-! ### One instruction -/

/-- Settles O1: `NOP` is an advance by 1; that it ends the phase rests on decision D8. -/
theorem nopRestsAndEndsPhase : Obligations.NopRestsAndEndsPhase := fun s =>
  let ⟨hframe, hmem⟩ := s.jumpTo_frame (s.cursor + 1)
  ⟨s.advance 1, rfl, movedBy_of_cursor rfl, hframe, hmem, rfl, rfl⟩

/-- Settles O2: the fields `HALT` writes are those of `State.haltBy_eq`. -/
theorem haltSetsHaltedAndContinues : Obligations.HaltSetsHaltedAndContinues := by
  intro s
  exact ⟨_, (exec_halt s).trans (congrArg _ (s.haltBy_eq 1)), rfl, movedBy_of_cursor rfl, rfl, rfl,
    sameMemory_of_pmem_eq rfl, rfl, rfl⟩

/-- Settles O3: the next opcode byte is fetched at `base` plus the operand. -/
theorem jumpCopiesOperandToCursor : Obligations.JumpCopiesOperandToCursor := by
  intro s target
  have haddr : (s.jumpTo target).codeAddr 0 = s.base + target := by simp [State.codeAddr]
  obtain ⟨hframe, hmem⟩ := s.jumpTo_frame target
  exact ⟨s.jumpTo target, rfl, rfl, haddr, hframe, hmem, rfl, rfl⟩

/-- Settles O4: both are conditional transfers whose skip of 2 is decision D9. -/
theorem conditionalJumpsTestAccumulator : Obligations.ConditionalJumpsTestAccumulator :=
  fun _ _ => ⟨exec_branch rfl, exec_branch_not rfl, rfl, rfl⟩

/-- Settles O7: the anchor is saved before the cursor moves on. -/
theorem sectionSavesItsOwnOffset : Obligations.SectionSavesItsOwnOffset := fun s =>
  ⟨s.saveAnchor.advance 1, rfl, rfl, movedBy_of_cursor rfl, rfl, sameMemory_of_pmem_eq rfl, rfl, rfl⟩

/-- Settles O8: `REPEAT` is a jump to the anchor, the other two are conditional transfers to it. -/
theorem repeatFamilyReturnsToAnchor : Obligations.RepeatFamilyReturnsToAnchor := fun s =>
  let ⟨hframe, hmem⟩ := s.jumpTo_frame s.sectionAnchor
  ⟨⟨s.jumpTo s.sectionAnchor, rfl, rfl, hframe, hmem⟩, exec_branch rfl, exec_branch_not rfl,
    rfl, rfl, rfl⟩

end Sys2Proof.Machine
end

section
/-! The system instructions (42_system.md): the one-way signal of `SYSCALL`, and the note that the byte
0xF6 plays. -/

namespace Sys2Proof.Machine

/-! ### `SYSCALL` -/

/-- What `SYSCALL` answers, field by field (42_system.md R140). -/
theorem exec_syscall (code : Word) (s : State) : exec (.syscall code) s =
    .next { s with syscallCode := code, syscallPulse := true, cursor := s.cursor + 3,
                   events := s.events ++ [.syscall code] } :=
  congrArg Host.Outcome.next (s.raiseSyscall_eq code 3)

/-- Settles O9, from the four fields that `SYSCALL` writes. -/
theorem syscallLatchesAndSignals : Obligations.SyscallLatchesAndSignals := by
  intro s code
  exact ⟨_, exec_syscall code s, rfl, rfl, movedBy_of_cursor rfl, rfl, rfl,
    sameMemory_of_pmem_eq rfl, rfl, rfl⟩

/-! ### Notes -/

/-- An instruction whose meaning is `State.raisePlay` plays its note (45_events.md R182 to R184). -/
theorem playsNote_of_raisePlay {i : Instr} {s : State} {note : Byte} {len : Nat}
    (hx : exec i s = .next (s.raisePlay note (BitVec.ofNat 16 len)))
    (he : controlOutcome Config.hardware i = .endPhase) : playsNote s i note len := by
  rw [State.raisePlay_eq] at hx
  exact ⟨_, hx, rfl, rfl, movedBy_of_cursor rfl, rfl, rfl, sameMemory_of_pmem_eq rfl, he⟩

/-- Settles O10: RESET's meaning is the note 246 with a length of one byte. -/
theorem resetOpcodePlaysNote246 : Obligations.ResetOpcodePlaysNote246 :=
  fun _ _ _ => ⟨rfl, playsNote_of_raisePlay rfl rfl, rfl⟩

end Sys2Proof.Machine
end

section
/-! The register instructions (43_register.md): `SET`, `ADD`, `SUB` and the five comparisons, and the
machine of `step` as the one that holds the register as an integer, at this hardware's parameters. -/

namespace Sys2Proof.Machine

/-! ### Arithmetic and comparisons of the register as a number -/

/-- `ADD` reduces the exact sum modulo 256 (43_register.md R152). -/
theorem Byte.toNat_add_int (x y : Byte) : ((x + y).toNat : Int) = ((x.toNat : Int) + y.toNat) % 256 := by
  rw [BitVec.toNat_add]
  omega

/-- `SUB` reduces the exact difference modulo 256 (43_register.md R153). -/
theorem Byte.toNat_sub_int (x y : Byte) : ((x - y).toNat : Int) = ((x.toNat : Int) - y.toNat) % 256 := by
  have := y.isLt
  rw [BitVec.toNat_sub]
  omega

theorem cmpEqual_iff (x y : Byte) : cmpEqual x y = true ↔ x.toNat = y.toNat := by
  rw [cmpEqual, beq_iff_eq, BitVec.toNat_inj]

theorem cmpLt_iff (x y : Byte) : cmpLt x y = true ↔ x.toNat < y.toNat := BitVec.ult_iff_lt

theorem cmpGt_iff (x y : Byte) : cmpGt x y = true ↔ x.toNat > y.toNat := BitVec.ult_iff_lt

theorem cmpLtEqual_iff (x y : Byte) : cmpLtEqual x y = true ↔ x.toNat ≤ y.toNat := BitVec.ule_iff_le

theorem cmpGtEqual_iff (x y : Byte) : cmpGtEqual x y = true ↔ x.toNat ≥ y.toNat := BitVec.ule_iff_le

/-! ### Fetch at another address width -/

/-- A decoder that reads the machine's addresses for every byte of the format fetches the machine's
instruction (20_memory.md R57, R58). -/
theorem fetchBy_eq_fetch {c : Config} {s : State}
    (h : ∀ k, k < formatLength (opcodeFormat (codeByteBy c s 0)) →
      codeAddrBy c s k = (s.codeAddr k).toNat) : fetchBy c s = s.fetch := by
  have hbyte : ∀ k, k < formatLength (opcodeFormat (codeByteBy c s 0)) →
      codeByteBy c s k = s.codeByte k := fun k hk => congrArg (Memory.lookup · s.pmem) (h k hk)
  have h0 : codeByteBy c s 0 = s.codeByte 0 :=
    hbyte 0 (by cases opcodeFormat (codeByteBy c s 0) <;> decide)
  calc fetchBy c s
      = decode (codeByteBy c s 0) (s.codeByte 1) (s.codeByte 2) := decode_congr (hbyte 1) (hbyte 2)
    _ = s.fetch := by rw [h0]; rfl

/-- No address of an accepted fetch wraps, where a wrap is refused (93_implementation_defined.md U11). -/
theorem unreducedAddr_lt_of_fetchUnwrapped {c : Config} {s : State} (hw : c.wrapRefused = true)
    (h : fetchUnwrapped c s = true) {k : Nat}
    (hk : k < formatLength (opcodeFormat (codeByteBy c s 0))) : unreducedAddr s k < 2 ^ c.paddrBits := by
  simp only [fetchUnwrapped, hw, fetchedBytes, Bool.not_true, Bool.false_or, List.all_eq_true,
    List.mem_range, decide_eq_true_eq] at h
  exact h k hk

/-- With this hardware's width, or with wraps refused at a narrower one, what is fetched is what the
machine fetches. -/
theorem fetchBy_of_fetchUnwrapped {c : Config} {s : State}
    (hc : c.paddrBits = 16 ∨ c.paddrBits ≤ 16 ∧ c.wrapRefused = true)
    (h : fetchUnwrapped c s = true) : fetchBy c s = s.fetch := by
  refine fetchBy_eq_fetch fun k hk => ?_
  obtain hbits | ⟨hbits, hw⟩ := hc
  · rw [codeAddrBy, hbits]
    exact codeAddrBy_hardware s k
  · exact codeAddrBy_of_unwrapped hbits (unreducedAddr_lt_of_fetchUnwrapped hw h hk)

/-! ### The machine of `step` is the variant at this hardware's parameters -/

/-- Loading an 8-bit value is the same on both registers. -/
theorem Variant.loadRegister_ofState (s : State) (b : Byte) :
    (Variant.ofState s).loadRegister b.toNat = Variant.ofState (s.loadRegister b) := by
  simp [Variant.loadRegister, Variant.ofState, State.loadRegister]

/-- A comparison of the integer register that decides what `b` says does what the machine's does. -/
theorem Variant.compare_ofState (s : State) {b : Bool} {p : Prop} [Decidable p] (h : b = true ↔ p) :
    (Variant.ofState s).compare (decide p) = Variant.ofState (s.compare b) := by
  have hb : decide p = b := Bool.eq_iff_iff.mpr (decide_eq_true_iff.trans h.symm)
  rw [hb]
  rfl

/-- A conditional transfer leaves the register alone. -/
theorem Variant.ofState_branch (s : State) (taken : Bool) (target skip : Word) :
    Variant.ofState (s.branch taken target skip)
      = { Variant.ofState s with core := s.branch taken target skip } := by
  cases taken <;> rfl

/-- One instruction (43_register.md R150): `ADD` and `SUB` reduce the integer as the byte does, the
comparisons read the same number, and the register is always a payload. -/
theorem execVariant_ofState {i : Instr} {s t : State} (h : exec i s = .next t) :
    execVariant Config.hardware i (Variant.ofState s) = .next (Variant.ofState t) := by
  cases i <;> cases h
  case instrumentSet | playSet =>
    simp only [execVariant, Variant.payload_ofState]
    rfl
  all_goals refine congrArg Host.Outcome.next ?_
  case setReg imm => exact Variant.loadRegister_ofState s imm
  case add imm =>
    rw [← Variant.loadRegister_ofState, Byte.toNat_add_int]
    rfl
  case sub imm =>
    rw [← Variant.loadRegister_ofState, Byte.toNat_sub_int]
    rfl
  case equal imm => exact Variant.compare_ofState s ((cmpEqual_iff _ imm).trans Int.ofNat_inj.symm)
  case lt imm => exact Variant.compare_ofState s ((cmpLt_iff _ imm).trans Int.ofNat_lt.symm)
  case gt imm => exact Variant.compare_ofState s ((cmpGt_iff _ imm).trans Int.ofNat_lt.symm)
  case ltEqual imm => exact Variant.compare_ofState s ((cmpLtEqual_iff _ imm).trans Int.ofNat_le.symm)
  case gtEqual imm => exact Variant.compare_ofState s ((cmpGtEqual_iff _ imm).trans Int.ofNat_le.symm)
  case ifJump | ifNotJump | ifRepeat | ifNotRepeat => exact (Variant.ofState_branch _ _ _ _).symm
  all_goals rfl

/-- This hardware refuses no fetch. -/
theorem variantInstrStep_hardware (v : Variant) :
    variantInstrStep Config.hardware v = execVariant Config.hardware v.core.fetch v := by
  rw [← fetchBy_hardware]
  rfl

/-- The instruction loop (40_dispatch.md R106), iteration by iteration. -/
theorem variantLoop_ofState {n : Nat} {s t : State}
    (h : phaseLoop exec (endsPhase Config.hardware) n s = .next t) :
    variantLoop Config.hardware n (Variant.ofState s) = .next (Variant.ofState t) := by
  induction n generalizing s with
  | zero =>
    cases h
    rfl
  | succ n ih =>
    obtain ⟨u, hu⟩ := exec_answers s.fetch s
    have hv : variantInstrStep Config.hardware (Variant.ofState s) = .next (Variant.ofState u) :=
      (variantInstrStep_hardware _).trans (execVariant_ofState hu)
    have hf : fetchBy Config.hardware (Variant.ofState s).core = s.fetch := fetchBy_hardware s
    rw [phaseLoop_succ hu] at h
    rw [variantLoop_succ hv, hf]
    by_cases he : endsPhase Config.hardware s.fetch
    · rw [if_pos he] at h ⊢
      cases h
      rfl
    · rw [if_neg he] at h ⊢
      exact ih h

/-- A call that no gate stops is the instruction loop, from the phase start. -/
theorem variantStep_open {c : Config} {v : Variant} (ho : v.core.gatesOpen) :
    variantStep c v = variantLoop c c.loopBound { v with core := v.core.phaseStart } := by
  obtain ⟨hh, ht, hw⟩ := ho
  simp [variantStep, hh, ht, hw, State.phaseStart]

/-- A call that a gate stops does what the machine's does, under any parameters. -/
theorem variantStep_closed {c : Config} {v : Variant} (hc : ¬ v.core.gatesOpen) :
    variantStep c v = v.lift (step v.core) := by
  unfold variantStep
  obtain hh | ⟨hh, ht⟩ | ⟨hh, ht, hw⟩ | ho := v.core.gate_cases
  · rw [if_pos hh, step_halted hh]
    rfl
  · rw [if_neg (by simp [hh]), if_pos ht, step_throttled hh ht]
    rfl
  · rw [if_neg (by simp [hh]), if_neg (not_not_intro ht), if_pos hw, step_waiting hh ht hw]
    rfl
  · exact absurd ho hc

/-- A call that a gate stops leaves the register alone. -/
theorem step_closed_register {s t : State} (hc : ¬ s.gatesOpen) (h : step s = .next t) :
    t.register = s.register := by
  obtain ⟨-, rfl⟩ | ⟨-, -, rfl⟩ | ⟨-, -, -, rfl⟩ | ⟨ho, -⟩ := dispatchBy_cases h
  · rfl
  · rfl
  · rfl
  · exact absurd ho hc

/-- One dispatch call: the variant at this hardware's parameters answers what `step` answers. -/
theorem variantStep_ofState {s t : State} (h : step s = .next t) :
    variantStep Config.hardware (Variant.ofState s) = .next (Variant.ofState t) := by
  by_cases ho : s.gatesOpen
  · rw [variantStep_open ho]
    exact variantLoop_ofState ((step_open ho).symm.trans h)
  · have hr : t.register = s.register := step_closed_register ho h
    calc variantStep Config.hardware (Variant.ofState s)
        = (Variant.ofState s).lift (step s) := variantStep_closed ho
      _ = .next (Variant.ofState t) := by simp [h, Variant.lift, Variant.ofState, hr]

/-! ### A machine that only refuses more fetches -/

/-- This hardware with the parameters of the fetch left open (20_memory.md R51, R52;
93_implementation_defined.md U3, U11). -/
def Config.withFetch (bits : Nat) (refuse : Bool) (limit : Option Nat) : Config :=
  { Config.hardware with paddrBits := bits, wrapRefused := refuse, fetchLimit := limit }

/-- Which instructions end the phase is no matter of the fetch. -/
theorem endsPhase_withFetch (bits : Nat) (refuse : Bool) (limit : Option Nat) (i : Instr) :
    endsPhase (Config.withFetch bits refuse limit) i = endsPhase Config.hardware i := rfl

section
variable {bits : Nat} {refuse : Bool} {limit : Option Nat} (hc : bits = 16 ∨ bits ≤ 16 ∧ refuse = true)
include hc

/-- Where its instruction step answers, it has run the machine's instruction. -/
theorem variantInstrStep_withFetch {v w : Variant}
    (h : variantInstrStep (Config.withFetch bits refuse limit) v = .next w) :
    fetchBy (Config.withFetch bits refuse limit) v.core = v.core.fetch
      ∧ variantInstrStep Config.hardware v = .next w := by
  obtain ⟨hu, -, hx⟩ := variantInstrStep_next h
  have hf : fetchBy (Config.withFetch bits refuse limit) v.core = v.core.fetch :=
    fetchBy_of_fetchUnwrapped hc hu
  rw [hf] at hx
  exact ⟨hf, (variantInstrStep_hardware v).trans hx⟩

/-- Where its loop answers, no iteration was refused. -/
theorem variantLoop_withFetch {n : Nat} {v w : Variant}
    (h : variantLoop (Config.withFetch bits refuse limit) n v = .next w) :
    variantLoop Config.hardware n v = .next w := by
  induction n generalizing v with
  | zero => exact h
  | succ n ih =>
    cases hs : variantInstrStep (Config.withFetch bits refuse limit) v with
    | fault r => simp [variantLoop, hs] at h
    | refused r => simp [variantLoop, hs] at h
    | next u =>
      obtain ⟨hf, hx⟩ := variantInstrStep_withFetch hc hs
      rw [variantLoop_succ hs, hf, endsPhase_withFetch] at h
      rw [variantLoop_succ hx, fetchBy_hardware]
      by_cases he : endsPhase Config.hardware v.core.fetch
      · rw [if_pos he] at h ⊢
        exact h
      · rw [if_neg he] at h ⊢
        exact ih h

/-- Where its call answers, this hardware answers the same. -/
theorem variantStep_withFetch {v w : Variant}
    (h : variantStep (Config.withFetch bits refuse limit) v = .next w) :
    variantStep Config.hardware v = .next w := by
  by_cases ho : v.core.gatesOpen
  · rw [variantStep_open ho] at h ⊢
    exact variantLoop_withFetch hc h
  · rw [variantStep_closed ho] at h ⊢
    exact h

end

/-- Settles O59: `step` answers, the variant at this hardware's parameters answers the same, and a
variant that only refuses more fetches answers nothing else. -/
theorem hardwareIsTheVariantAtItsParameters : Obligations.HardwareIsTheVariantAtItsParameters := by
  have hsim : ∀ s : State, ∃ t, step s = .next t
      ∧ variantStep Config.hardware (Variant.ofState s) = .next (Variant.ofState t) := fun s =>
    let ⟨t, ht⟩ := step_answers s
    ⟨t, ht, variantStep_ofState ht⟩
  refine ⟨hsim, codeAddrBy_hardware, fun bits refuse limit s v hc h => ?_⟩
  obtain ⟨t, ht, hv⟩ := hsim s
  rw [variantStep_withFetch hc h] at hv
  exact ⟨t, ht, Host.Outcome.next.inj hv⟩

/-! ### One instruction -/

/-- The frame of a register write: the register and the cursor are the fields it writes. -/
theorem State.loadRegister_frame (s : State) (v : Byte) :
    movedBy s (s.loadRegister v) 2
      ∧ s.loadRegister v = { s with register := v, cursor := (s.loadRegister v).cursor }
      ∧ sameMemory s (s.loadRegister v) :=
  ⟨movedBy_of_cursor rfl, rfl, sameMemory_of_pmem_eq rfl⟩

/-- Settles O11: `SET` writes the operand, which is in 0 to 255 under either `REG_ARITH`. -/
theorem setWritesImmediate : Obligations.SetWritesImmediate := by
  intro s imm
  obtain ⟨hmoved, hframe, hmem⟩ := s.loadRegister_frame imm
  refine ⟨⟨s.loadRegister imm, rfl, rfl, hmoved, hframe, hmem, rfl, rfl⟩, fun c v => ?_⟩
  have h0 : (0 : Int) ≤ imm.toNat := Int.natCast_nonneg _
  have h1 : (imm.toNat : Int) < 256 := Int.ofNat_lt.mpr imm.isLt
  exact ⟨v.loadRegister imm.toNat, rfl, h0, h1⟩

/-- Settles O12: `ADD` loads the sum of bytes, which is the sum modulo 256 (decision D1). -/
theorem addReducesModulo256 : Obligations.AddReducesModulo256 := fun s imm =>
  let ⟨hmoved, hframe, hmem⟩ := s.loadRegister_frame (s.register + imm)
  ⟨_, rfl, BitVec.toNat_add s.register imm, hmoved, hframe, hmem, rfl⟩

/-- Settles O13: `SUB` loads the difference of bytes, which is the difference modulo 256 (decision
D1). -/
theorem subReducesModulo256 : Obligations.SubReducesModulo256 := fun s imm =>
  let ⟨hmoved, hframe, hmem⟩ := s.loadRegister_frame (s.register - imm)
  ⟨_, rfl, Byte.toNat_sub_int s.register imm, hmoved, hframe, hmem, rfl⟩

/-- An instruction whose meaning is `State.compare` overwrites `acc` and moves on (43_register.md
R159). -/
theorem comparesAs_of_compare {i : Instr} {s : State} {op imm : Byte} {b : Bool} {holds : Prop}
    (hx : exec i s = .next (s.compare b)) (hb : b = true ↔ holds)
    (hc : controlOutcome Config.hardware i = .continueLoop) (he : encode i = [op, imm]) :
    comparesAs s i op imm holds :=
  ⟨_, hx, hb, movedBy_of_cursor rfl, rfl, sameMemory_of_pmem_eq rfl, hc, he⟩

/-- Settles O14: each comparison hands `State.compare` the unsigned relation of its rule. -/
theorem comparisonsOverwriteAccumulator : Obligations.ComparisonsOverwriteAccumulator :=
  fun s imm =>
    ⟨comparesAs_of_compare rfl (cmpEqual_iff s.register imm) rfl rfl,
      comparesAs_of_compare rfl (cmpLt_iff s.register imm) rfl rfl,
      comparesAs_of_compare rfl (cmpGt_iff s.register imm) rfl rfl,
      comparesAs_of_compare rfl (cmpLtEqual_iff s.register imm) rfl rfl,
      comparesAs_of_compare rfl (cmpGtEqual_iff s.register imm) rfl rfl⟩

end Sys2Proof.Machine
end

section
/-! The timing instructions (44_timing.md): what `TICKS` and `WAIT` write and leave alone, and the phase
from which a new rate counts. -/

namespace Sys2Proof.Machine

/-! ### One instruction -/

/-- An 8-bit operand keeps its value as a 16-bit rate or wait (30_encoding.md R73). -/
theorem zext16_toNat (b : Byte) : (zext16 b).toNat = b.toNat := BitVec.toNat_setWidth_of_le (by decide)

/-- The frame of a rate write: the rate and the cursor are the fields it writes, and so not
`tickCounter` (44_timing.md R170, R171). -/
theorem frame_of_setTickRate {s t : State} {rate : Word} {n : Nat}
    (h : t = (s.setTickRate rate).advance (BitVec.ofNat 16 n)) :
    movedBy s t n ∧ t = { s with tickRate := t.tickRate, cursor := t.cursor } ∧ sameMemory s t := by
  subst h
  exact ⟨movedBy_of_cursor rfl, rfl, sameMemory_of_pmem_eq rfl⟩

/-- The frame of a wait write: the wait counter and the cursor are the fields it writes
(44_timing.md R172, R173). -/
theorem frame_of_setWaitCounter {s t : State} {wait : Word} {n : Nat}
    (h : t = (s.setWaitCounter wait).advance (BitVec.ofNat 16 n)) :
    movedBy s t n ∧ t = { s with waitCounter := t.waitCounter, cursor := t.cursor }
      ∧ sameMemory s t := by
  subst h
  exact ⟨movedBy_of_cursor rfl, rfl, sameMemory_of_pmem_eq rfl⟩

/-- Settles O15: both write the rate and advance; `TICKS` zero-extends its operand. -/
theorem ticksSetsReloadValue : Obligations.TicksSetsReloadValue := fun _ imm _ =>
  ⟨⟨_, rfl, zext16_toNat imm, frame_of_setTickRate rfl⟩, ⟨_, rfl, rfl, frame_of_setTickRate rfl⟩,
    rfl, rfl⟩

/-- Settles O16: both write the wait counter and advance; `WAIT` zero-extends its operand. -/
theorem waitSetsPauseCounter : Obligations.WaitSetsPauseCounter := fun _ imm _ =>
  ⟨⟨_, rfl, zext16_toNat imm, frame_of_setWaitCounter rfl⟩,
    ⟨_, rfl, rfl, frame_of_setWaitCounter rfl⟩, rfl, rfl⟩

/-! ### The phase from which a new rate counts -/

/-- What `TICKS` and `TICKS16` have in common: the call that runs one has reloaded `tickCounter` at the
phase start, and then writes the rate and moves the cursor past the instruction. -/
theorem step_ticks {s : State} {rate : Word} (ho : s.gatesOpen)
    (hf : s.fetch = .ticks16 rate ∨ ∃ imm, s.fetch = .ticks imm ∧ rate = zext16 imm) :
    ∃ len : Word, step s = .next ((s.phaseStart.setTickRate rate).advance len) := by
  obtain hf | ⟨imm, hf, rfl⟩ := hf
  · exact ⟨3, step_of_ending ho (by rw [hf]; rfl) (by rw [hf]; rfl)⟩
  · exact ⟨2, step_of_ending ho (by rw [hf]; rfl) (by rw [hf]; rfl)⟩

/-- Settles O49: the old rate is counted down with the new one in place, and the next active phase
reloads from that. -/
theorem newRateIsLateByOnePhase : Obligations.NewRateIsLateByOnePhase := by
  intro s rate ho hf
  obtain ⟨len, hstep⟩ := step_ticks ho hf
  obtain ⟨hrunning, hcounter, hwait⟩ := ho
  obtain ⟨u, hu, huh, huc, hframe, -⟩ :=
    rateLaw s _ hrunning hcounter hstep hrunning s.tickRate.toNat le_rfl
  have huw : u.waitCounter = 0 := by rw [hframe]; exact hwait
  have hur : u.tickRate = rate := by rw [hframe]; rfl
  have hzero : u.tickCounter = 0 := BitVec.eq_of_toNat_eq (by simpa using huc)
  exact ⟨_, u, hstep, rfl, rfl, hu, ⟨huh, hzero, huw⟩, by rw [hframe],
    fun v hv => (step_active_tickCounter huh hzero hv).trans hur⟩

end Sys2Proof.Machine
end

section
/-! The event instructions and the bare note (45_events.md): latch, pulse and event of an instrument
change and of a note, and the bytes that select the bare note. -/

namespace Sys2Proof.Machine

/-! ### Instrument changes -/

/-- An instruction whose meaning is `State.raiseInstrument` changes the instrument (45_events.md R180,
R181). -/
theorem changesInstrument_of_raiseInstrument {i : Instr} {s : State} {index : Byte} {len : Nat}
    (hx : exec i s = .next (s.raiseInstrument index (BitVec.ofNat 16 len)))
    (he : controlOutcome Config.hardware i = .endPhase) : changesInstrument s i index len := by
  rw [State.raiseInstrument_eq] at hx
  exact ⟨_, hx, rfl, rfl, movedBy_of_cursor rfl, rfl, rfl, sameMemory_of_pmem_eq rfl, he⟩

/-- Settles O17: both raise an instrument change, of the operand and of the register. -/
theorem instrumentLatchesAndSignals : Obligations.InstrumentLatchesAndSignals := fun _ _ =>
  ⟨changesInstrument_of_raiseInstrument rfl rfl, changesInstrument_of_raiseInstrument rfl rfl,
    rfl, rfl⟩

/-! ### Notes -/

/-- `PLAY` plays its operand (45_events.md R182). -/
theorem play_playsNote (s : State) (imm : Byte) : playsNote s (.play imm) imm 2 :=
  playsNote_of_raisePlay rfl rfl

/-- The bare note plays its opcode byte (45_events.md R184). -/
theorem bareNote_playsNote (s : State) (n : Byte) : playsNote s (.bareNote n) n 1 :=
  playsNote_of_raisePlay rfl rfl

/-- Settles O18: both raise a note, of the operand and of the register. -/
theorem playLatchesAndSignals : Obligations.PlayLatchesAndSignals := fun s imm =>
  ⟨play_playsNote s imm, playsNote_of_raisePlay rfl rfl, rfl, rfl⟩

/-- Settles O19: a byte in 0x01 to 0xE5 decodes to the bare note, and 0xF6 to RESET, whose note is that
byte. -/
theorem bareNotePlaysOpcode : Obligations.BareNotePlaysOpcode := by
  intro s n b1 b2 hn
  have hbare : playsNote s (.bareNote n) n 1 := bareNote_playsNote s n
  have hplay : playsNote s (.play n) n 2 := play_playsNote s n
  obtain hrange | hF6 := hn
  · rw [decode_of_isBareNoteByte ((isBareNoteByte_iff n).mpr hrange)]
    exact ⟨hbare, hbare, rfl, hplay⟩
  · obtain rfl : n = 0xF6 := BitVec.eq_of_toNat_eq hF6
    exact ⟨playsNote_of_raisePlay rfl rfl, hbare, rfl, hplay⟩

/-- The length of a note's instruction shows in the cursor only (30_encoding.md R94). -/
theorem State.raisePlay_other_length (s : State) (n : Byte) (len len' : Word) :
    s.raisePlay n len' = { s.raisePlay n len with cursor := s.cursor + len' } := by
  simp only [State.raisePlay_eq]

/-- Settles O20: both raise the same note, at lengths 2 and 1. -/
theorem bareNoteIsPlayButForLength : Obligations.BareNoteIsPlayButForLength := fun s n =>
  ⟨s.raisePlay n 2, s.raisePlay n 1, rfl, rfl, s.raisePlay_other_length n 2 1,
    s.raisePlay_other_length n 1 2⟩

end Sys2Proof.Machine
end

section
/-! What the host sees and does (60_exceptions.md): the events of a call against the observation fields,
and what each host request keeps and leaves alone in a system of Tracks. -/

namespace Sys2Proof.Machine

/-! ### Events and observation fields -/

/-- What the event says stands in the observation fields of `t` (60_exceptions.md R206). -/
def Event.shownIn (t : Track) : Event → Prop
  | .halt => t.halted = true
  | .syscall code => t.syscallPulse = true ∧ t.syscallCode = code
  | .instrument index => t.instrumentPulse = true ∧ t.instrument = index
  | .play note => t.playPulse = true ∧ t.note = note

/-- As long as no instruction has ended the phase, `Halt` alone has been emitted, and it is shown. -/
def State.onlyHaltsShown (s : State) : Prop := ∀ e ∈ s.events, e = .halt ∧ s.halted = true

theorem State.shownIn_of_onlyHaltsShown {s : State} (hs : s.onlyHaltsShown) :
    ∀ e ∈ s.events, e.shownIn s.toTrack := by
  intro e he
  obtain ⟨rfl, hh⟩ := hs e he
  exact hh

/-- A continuing instruction emits a `Halt` only where it sets `halted` (41_control.md R121). -/
theorem exec_continuing_onlyHaltsShown {i : Instr} {s t : State}
    (hi : endsPhase Config.hardware i = false) (h : exec i s = .next t) (hs : s.onlyHaltsShown) :
    t.onlyHaltsShown := by
  intro e he
  obtain ⟨-, -, ⟨hh, hev⟩ | ⟨-, hh, hev⟩⟩ := exec_continuing hi h
  · rw [hev] at he
    exact hh ▸ hs e he
  · rw [hev, List.mem_append, List.mem_singleton] at he
    exact ⟨he.elim (fun hold => (hs e hold).1) id, hh⟩

/-- Where one event was appended and is shown, an event of the list is an old one or is shown. -/
theorem Event.mem_or_shownIn {t : Track} {es es' : List Event} {e new : Event}
    (hes : es' = es ++ [new]) (hnew : new.shownIn t) (he : e ∈ es') : e ∈ es ∨ e.shownIn t := by
  rw [hes, List.mem_append, List.mem_singleton] at he
  obtain hold | rfl := he
  · exact .inl hold
  · exact .inr hnew

/-- The event a phase-ending instruction adds is shown by the pulse and the latch it writes
(45_events.md R187). -/
theorem Signals.mem_or_shownIn {s t : State} (h : Signals s t) {e : Event} (he : e ∈ t.events) :
    e ∈ s.events ∨ e.shownIn t.toTrack := by
  cases h with
  | silent hev => exact .inl (hev ▸ he)
  | syscall hev sys => exact Event.mem_or_shownIn hev ⟨sys, rfl⟩ he
  | instrument hev _ ins => exact Event.mem_or_shownIn hev ⟨ins, rfl⟩ he
  | play hev _ _ ply => exact Event.mem_or_shownIn hev ⟨ply, rfl⟩ he

/-- A phase-ending instruction keeps the `Halt`s shown, since it leaves `halted` alone. -/
theorem exec_ending_shownIn {i : Instr} {s t : State} (hi : endsPhase Config.hardware i = true)
    (h : exec i s = .next t) (hs : s.onlyHaltsShown) : ∀ e ∈ t.events, e.shownIn t.toTrack := by
  intro e he
  obtain ⟨hh, hsig⟩ := exec_ending hi h
  obtain hold | hnew := hsig.mem_or_shownIn he
  · obtain ⟨rfl, hhalted⟩ := hs e hold
    exact hh.trans hhalted
  · exact hnew

/-- Every event of a call is shown by the observation fields after it. -/
theorem step_events_shownIn {s t : State} (h : step s = .next t) :
    ∀ e ∈ t.events, e.shownIn t.toTrack := by
  obtain ⟨hh, rfl⟩ | ⟨-, -, rfl⟩ | ⟨-, -, -, rfl⟩ | ⟨-, hl⟩ := dispatchBy_cases h
  · intro e he
    obtain rfl : e = .halt := List.mem_singleton.mp he
    exact hh
  · exact fun e he => absurd he List.not_mem_nil
  · exact fun e he => absurd he List.not_mem_nil
  · exact phaseLoop_induct (Q := State.onlyHaltsShown)
      (fun _ _ _ hu hi hx => exec_continuing_onlyHaltsShown hi hx hu)
      (fun _ _ _ hu hi hx => exec_ending_shownIn hi hx hu)
      (fun _ hu => State.shownIn_of_onlyHaltsShown hu)
      255 s.phaseStart t (fun e he => absurd he List.not_mem_nil) hl

/-- Settles O46, event by event. -/
theorem eventsAreObservable : Obligations.EventsAreObservable := by
  intro s t h
  have hshown := step_events_shownIn h
  exact ⟨hshown .halt, fun c => hshown (.syscall c), fun i => hshown (.instrument i),
    fun n => hshown (.play n)⟩

/-! ### The invariant of a system -/

/-- No pulse is true after construction or reset (decision D2). -/
theorem Track.construct_onePulse (base : Word) : (Track.construct base).onePulse = true :=
  Track.onePulse_of_noPulse ⟨rfl, rfl, rfl⟩

theorem System.inv_setTrack {y : System} {k : Nat} {t : Track} (hy : y.inv)
    (ht : t.onePulse = true) : (y.setTrack k t).inv := by
  obtain ⟨hmem, hbuf, htracks⟩ := hy
  refine ⟨hmem, hbuf, fun u hu => ?_⟩
  obtain hold | rfl := System.mem_setTrack hu
  · exact htracks u hold
  · exact ht

theorem System.inv_dispatch {y z : System} {k : Nat} {p : Reply} (hy : y.inv)
    (h : y.dispatch k = .next (z, p)) : z.inv := by
  obtain ⟨t, s, ht, hs, rfl, -⟩ := System.dispatch_next h
  have ⟨_, _, htracks⟩ := hy
  have hpulse : (t.over y.pmem).onePulse = true := htracks t (List.mem_of_getElem? ht)
  exact System.inv_setTrack hy (step_onePulse hpulse hs)

theorem System.inv_construct {y : System} (hy : y.inv) (base : Word) : (y.construct base).inv := by
  obtain ⟨hmem, hbuf, htracks⟩ := hy
  refine ⟨hmem, hbuf, fun t ht => ?_⟩
  obtain hold | hnew := List.mem_append.mp ht
  · exact htracks t hold
  · obtain rfl := List.mem_singleton.mp hnew
    exact Track.construct_onePulse base

theorem System.inv_assemble {y : System} (hy : y.inv) (c : AsmCall) : (y.assemble c).inv := by
  obtain ⟨hmem, hbuf, htracks⟩ := hy
  obtain ⟨htr, hwf, -⟩ := System.appendBytes_frame c.bytes y
  obtain ⟨hbuf', -⟩ := System.appendBytes_spec c.bytes hbuf
  refine ⟨hwf hmem, hbuf', fun t ht => htracks t ?_⟩
  rwa [System.assemble, htr] at ht

/-- Settles O54, request by request. -/
theorem requestKeepsSystemInvariant : Obligations.RequestKeepsSystemInvariant := by
  intro y z r p hy h
  have ⟨hmem, hbuf, htracks⟩ := hy
  cases r with
  | construct base => cases h; exact System.inv_construct hy base
  | dispatch k => exact System.inv_dispatch hy h
  | reset k =>
    obtain ⟨t, -, rfl, -⟩ := System.resetTrack_next h
    exact System.inv_setTrack hy (Track.construct_onePulse t.base)
  | observe k =>
    obtain ⟨-, -, rfl, -⟩ := System.observe_next h
    exact hy
  | writeByte a b => cases h; exact ⟨Memory.wf_write a b hmem, hbuf, htracks⟩
  | assemble c => cases h; exact System.inv_assemble hy c
  | clearBuffer => cases h; exact ⟨hmem, ⟨Nat.zero_le _, .inl rfl⟩, htracks⟩
  | bufferLength => cases h; exact hy
  | inspectBuffer => cases h; exact hy

/-! ### What a request leaves alone -/

theorem System.setTrack_other {y : System} {j k : Nat} (h : j ≠ k) (t : Track) :
    (y.setTrack k t).tracks[j]? = y.tracks[j]? :=
  List.getElem?_set_ne h.symm

/-- Replacing one Track leaves the memory, the buffer, the number of Tracks and every other Track. -/
theorem System.setTrack_frame (y : System) (k : Nat) (t : Track) :
    sameBuffer y (y.setTrack k t) ∧ (y.setTrack k t).tracks.length = y.tracks.length
      ∧ ∀ j : Nat, j ≠ k → (y.setTrack k t).tracks[j]? = y.tracks[j]? :=
  ⟨⟨rfl, rfl, rfl⟩, List.length_set, fun _ hj => System.setTrack_other hj t⟩

/-- A dispatch or a reset replaces the Track it names. -/
theorem System.eq_setTrack_of_request {y z : System} {k : Nat} {p : Reply}
    (h : y.request (.dispatch k) = .next (z, p) ∨ y.request (.reset k) = .next (z, p)) :
    ∃ t, z = y.setTrack k t := by
  obtain h | h := h
  · obtain ⟨-, s, -, -, hz, -⟩ := System.dispatch_next h
    exact ⟨s.toTrack, hz⟩
  · obtain ⟨t, -, hz, -⟩ := System.resetTrack_next h
    exact ⟨t.hostReset, hz⟩

/-- A new Track goes after those there are. -/
theorem System.construct_older {y : System} {j : Nat} {t : Track} (base : Word)
    (h : y.tracks[j]? = some t) : (y.construct base).tracks[j]? = some t :=
  (List.getElem?_append_left (List.getElem?_eq_some_iff.mp h).1).trans h

theorem System.writeByte_other (y : System) {a a' : Word} (b : Byte) (h : a' ≠ a) :
    (y.writeByte a b).pmem.read a' = y.pmem.read a' :=
  (Memory.read_write y.pmem a a' b).trans (if_neg h)

/-- Settles O55: a frame for each request. -/
theorem requestTouchesOnlyWhatItNames : Obligations.RequestTouchesOnlyWhatItNames := by
  intro y z p
  refine ⟨fun k h => ?_, fun k h => ?_, fun base h => ?_, fun a b h => ?_, fun c h => ?_,
    fun h => ?_, fun h => ?_, fun h => ?_⟩
  · obtain ⟨t, rfl⟩ := System.eq_setTrack_of_request h
    exact y.setTrack_frame k t
  · obtain ⟨-, -, hz, -⟩ := System.observe_next h
    exact hz
  · cases h
    exact ⟨⟨rfl, rfl, rfl⟩, fun _ _ => System.construct_older base⟩
  · cases h
    exact ⟨rfl, rfl, rfl, fun _ => y.writeByte_other b⟩
  · cases h
    obtain ⟨htracks, -, hmem⟩ := System.appendBytes_frame c.bytes y
    exact ⟨htracks, hmem⟩
  · cases h
    exact ⟨rfl, rfl, rfl⟩
  · cases h
    exact ⟨rfl, congrArg Reply.length y.length_contents.symm⟩
  · cases h
    exact ⟨rfl, rfl⟩

/-! ### Two Tracks -/

theorem System.setTrack_comm (y : System) {j k : Nat} (h : j ≠ k) (t u : Track) :
    (y.setTrack j t).setTrack k u = (y.setTrack k u).setTrack j t := by
  simp only [System.setTrack, List.set_comm t u h]

/-- A dispatch reads its own Track and program memory, so replacing another Track before it changes
neither what it hands over nor what it does to its own. -/
theorem System.dispatch_setTrack {y : System} {j k : Nat} {t : Track} {s : State} (h : k ≠ j)
    (ht : y.tracks[k]? = some t) (hs : step (t.over y.pmem) = .next s) (u : Track) :
    (y.setTrack j u).dispatch k = .next ((y.setTrack j u).setTrack k s.toTrack, .events s.events) :=
  System.dispatch_of_step ((System.setTrack_other h u).trans ht) hs

/-- Settles O58: each dispatch replaces its own Track, and the replacements commute. -/
theorem tracksDoNotInteract : Obligations.TracksDoNotInteract := by
  intro y yj yk j k pj pk hjk hj hk
  obtain ⟨tj, sj, htj, hsj, rfl, rfl⟩ := System.dispatch_next hj
  obtain ⟨tk, sk, htk, hsk, rfl, rfl⟩ := System.dispatch_next hk
  refine ⟨_, System.dispatch_setTrack hjk.symm htk hsk sj.toTrack, ?_⟩
  rw [System.setTrack_comm y hjk]
  exact System.dispatch_setTrack hjk htj hsj sk.toTrack

end Sys2Proof.Machine
end

section
/-! Hazards and reset (70_reset_and_hazards.md): the operand byte a conditional jump that is not taken
lands on, and the state after construction or reset with the call that starts there. -/

namespace Sys2Proof

/-- Three bytes that decode to a 16-bit form hold the operand's high byte last (30_encoding.md R70). -/
theorem last_byte_of_encode_decode_eq_bytesF16 {b0 b1 b2 opcode : Byte} {w : Word}
    (h : encode (decode b0 b1 b2) = bytesF16 opcode w) : b2 = highByte w := by
  rw [encode_decode] at h
  cases hf : opcodeFormat b0 with
  | f0 => simp [hf, formatLength, bytesF16] at h
  | f8 => simp [hf, formatLength, bytesF16] at h
  | f16 =>
    simp only [hf, formatLength, bytesF16, List.take_succ_cons, List.cons.injEq] at h
    obtain ⟨-, -, hlast, -⟩ := h
    exact hlast

theorem highByte_eq_zero {w : Word} (h : w.toNat < 256) : highByte w = 0 := by
  apply BitVec.eq_of_toNat_eq
  rw [highByte_toNat, Nat.div_eq_of_lt h]
  rfl

end Sys2Proof

namespace Sys2Proof.Machine

/-! ### The bytes behind the cursor -/

/-- The byte behind an advance is one further on in the same program (20_memory.md R52). -/
theorem State.advance_codeByte (s : State) (n k : Nat) :
    (s.advance (BitVec.ofNat 16 n)).codeByte k = s.codeByte (n + k) := by
  simp only [State.codeByte, State.codeAddr, State.advance_base, State.advance_cursor,
    State.advance_pmem, BitVec.ofNat_add, BitVec.add_assoc]

theorem State.codeByte_two_of_fetch {s : State} {i : Instr} {opcode : Byte} {w : Word}
    (hf : s.fetch = i) (he : encode i = bytesF16 opcode w) : s.codeByte 2 = highByte w :=
  last_byte_of_encode_decode_eq_bytesF16 ((congrArg encode hf).trans he)

/-! ### A conditional jump that is not taken -/

/-- The instruction at the cursor is a conditional jump to `target`, and `acc` does not let it jump. -/
def State.notTakenJump (s : State) (target : Word) : Prop :=
  s.fetch = .ifJump target ∧ s.accumulator = false
    ∨ s.fetch = .ifNotJump target ∧ s.accumulator = true

/-- Reload and clear leave `acc` and the fetch alone. -/
theorem State.notTakenJump.phaseStart {s : State} {target : Word} (h : s.notTakenJump target) :
    s.phaseStart.notTakenJump target := by
  simpa only [State.notTakenJump, State.phaseStart_fetch, State.phaseStart_accumulator] using h

/-- It moves on by the skip of decision D9. -/
theorem State.notTakenJump.advances {s : State} {target : Word} (h : s.notTakenJump target) :
    exec s.fetch s = .next (s.advance 2) := by
  obtain ⟨hf, ha⟩ | ⟨hf, ha⟩ := h
  · rw [hf, exec, execIfJump, ha, State.branch_false]
    rfl
  · rw [hf, exec, execIfNotJump, ha, Bool.not_true, State.branch_false]
    rfl

theorem State.notTakenJump.continues {s : State} {target : Word} (h : s.notTakenJump target) :
    endsPhase Config.hardware s.fetch = false := by
  obtain ⟨hf, -⟩ | ⟨hf, -⟩ := h <;> rw [hf] <;> rfl

/-- A skip of 2 over three bytes: the next opcode byte is the operand's high byte. -/
theorem State.notTakenJump.next_codeByte {s : State} {target : Word} (h : s.notTakenJump target) :
    (s.advance 2).codeByte 0 = highByte target := by
  refine (s.advance_codeByte 2 0).trans ?_
  obtain ⟨hf, -⟩ | ⟨hf, -⟩ := h
  · exact State.codeByte_two_of_fetch hf rfl
  · exact State.codeByte_two_of_fetch hf rfl

/-- Where the target is below 256, that byte is the opcode of `NOP`. -/
theorem State.notTakenJump.next_fetch {s : State} {target : Word} (h : s.notTakenJump target)
    (hlt : target.toNat < 256) : (s.advance 2).fetch = .nop :=
  State.fetch_of_codeByte (h.next_codeByte.trans (highByte_eq_zero hlt))

/-- Settles O5: the skip lands on the last byte of the jump itself. -/
theorem notTakenJumpLandsOnHighByte : Obligations.NotTakenJumpLandsOnHighByte := by
  intro s t target (h : s.notTakenJump target) ht
  have hnext : instrStep s = .next (s.advance 2) := h.advances
  rw [hnext] at ht
  cases ht
  exact h.next_codeByte

/-- Settles O6: the loop runs the jump and then its high byte as `NOP`, which ends the phase
(decision D8). -/
theorem notTakenJumpBelow256IsSilentPhase : Obligations.NotTakenJumpBelow256IsSilentPhase := by
  intro s target ho hlt (h : s.notTakenJump target)
  have hp := h.phaseStart
  have hnop := hp.next_fetch hlt
  have hends : endsPhase Config.hardware (s.phaseStart.advance 2).fetch = true := by
    rw [hnop]
    rfl
  have hexec : exec (s.phaseStart.advance 2).fetch (s.phaseStart.advance 2)
      = .next (s.phaseStart.jumpTo (s.cursor + 3)) := by
    rw [hnop, show s.cursor + 3 = s.cursor + 2 + 1 from (BitVec.add_assoc s.cursor 2 1).symm]
    rfl
  constructor
  · rw [step_of_continuing ho h.continues hp.advances, phaseLoop_succ hexec, if_pos hends]
  · rw [callFetches_open ho, hardware_loopBound, loopFetches_succ hp.advances, hp.continues,
      if_neg Bool.false_ne_true, loopFetches_succ hexec, if_pos hends]

/-! ### Construction and reset -/

/-- A reset is a construction at the same base over the same memory (70_reset_and_hazards.md R231). -/
theorem State.hostReset_eq (s : State) : s.hostReset = (Track.construct s.base).over s.pmem := rfl

@[simp] theorem Track.construct_over_base (base : Word) (m : Memory) :
    ((Track.construct base).over m).base = base := rfl
@[simp] theorem Track.construct_over_cursor (base : Word) (m : Memory) :
    ((Track.construct base).over m).cursor = 0 := rfl
@[simp] theorem Track.construct_over_pmem (base : Word) (m : Memory) :
    ((Track.construct base).over m).pmem = m := rfl

theorem Track.construct_over_gatesOpen (base : Word) (m : Memory) :
    ((Track.construct base).over m).gatesOpen := ⟨rfl, rfl, rfl⟩

/-- Nothing is left to reload or to clear. -/
theorem Track.construct_over_phaseStart (base : Word) (m : Memory) :
    ((Track.construct base).over m).phaseStart = (Track.construct base).over m :=
  State.openPhase_eq_self rfl ⟨rfl, rfl, rfl⟩

theorem Track.construct_over_codeAddr (base : Word) (m : Memory) (k : Nat) :
    ((Track.construct base).over m).codeAddr k = base + BitVec.ofNat 16 k := by
  simp [State.codeAddr]

theorem Track.construct_over_fetch (base : Word) (m : Memory) :
    ((Track.construct base).over m).fetch
      = decode (m.read base) (m.read (base + 1)) (m.read (base + 2)) := by
  simp [State.fetch, State.codeByte, Track.construct_over_codeAddr]

/-- Settles O56: the values are those of decision D2. -/
theorem resetRestoresDefaults : Obligations.ResetRestoresDefaults := by
  intro s
  rw [s.hostReset_eq]
  exact ⟨rfl, rfl, rfl, rfl, rfl⟩

/-- Settles O57: reset leaves what construction leaves, and the first call's loop starts from that very
state. -/
theorem firstCallFetchesAtBase : Obligations.FirstCallFetchesAtBase := by
  intro s base m hs
  obtain rfl : s = (Track.construct base).over m := by
    obtain hc | ⟨r, rfl, rfl, hr⟩ := hs
    · exact hc
    · exact hr.trans r.hostReset_eq
  have hopen := Track.construct_over_gatesOpen base m
  have hstart := Track.construct_over_phaseStart base m
  have hfetch := Track.construct_over_fetch base m
  have hstep : step ((Track.construct base).over m)
      = phaseLoop exec (endsPhase Config.hardware) 255 ((Track.construct base).over m) := by
    rw [step_open hopen, hstart]
  obtain ⟨t, ht⟩ := exec_answers _ ((Track.construct base).over m)
  rw [← hfetch]
  exact ⟨hopen, hstart, Track.construct_over_codeAddr base m, rfl, hstep, t, ht,
    hstep.trans (phaseLoop_succ ht)⟩

end Sys2Proof.Machine
end
